-- ==== Sys2Proof/Word.lean ====
section
/-! DEFINITION. The widths of the block's values (00_scope.md R13, R14): every value is unsigned, bit 0 the least significant. -/

namespace Sys2Proof

/-- A byte: an 8-bit unsigned value (R14). -/
abbrev Byte := BitVec 8

/-- A command argument: 32 bits (R13). -/
abbrev Arg := BitVec 32

/-- The CRC remainder and the CRC register: 7 bits (R13, R81). -/
abbrev Crc := BitVec 7

/-- A completion's `value` and the response accumulator: 128 bits (R67, R121). -/
abbrev Value := BitVec 128

end Sys2Proof
end

