-- ==== Sys2Proof/Config.lean ====
section
/-! DEFINITION. The block's parameters (00_scope.md R12), its fixed constants, and the free values of the link oracle (20_memory.md R47). -/

namespace Sys2Proof

/-- R12 `OVERSIZE_INDEX_POLICY`: what a command index 64..255 means (R68, R174). -/
inductive OversizePolicy where
  | mask
  | refuse
deriving DecidableEq, Repr, Inhabited

/-- The parameters of R12 that a model takes as arguments. `maxDataLen = none` is MAX_DATA_LEN
unbounded (R12, R175). State holds one such record, so a claim about every state is a claim about
every value of the parameters (log 15). -/
structure Params where
  flushCount : Nat
  maxDataLen : Option Nat
  oversize   : OversizePolicy
deriving DecidableEq, Repr, Inhabited

/-- The column "this block" of R12: FLUSH_COUNT = 255, policy `mask`; MAX_DATA_LEN, which R12 leaves
OPEN, is taken unbounded (DESIGN CHOICE, log 15). -/
def Params.thisBlock : Params :=
  { flushCount := 255, maxDataLen := none, oversize := .mask }

/-- R12 `SENTINEL`: the fill byte sent on every read exchange (R65). -/
def Config.sentinel : Byte := 0xFF#8

/-- R12 `FRAME_MARKER`: the fixed top bits `01` of command byte 0 (R62, R101). -/
def Config.frameMarker : Byte := 0x40#8

/-- R12 `CRC_POLY` without its x^7 term, which needs no register bit: x^3 + 1 (R82). -/
def Config.crcPoly : Crc := 0x09#7

/-- R12 `CRC_INIT` (R81). -/
def Config.crcInit : Crc := 0#7

/-- R12 `LinkError`, a parameter of the model with no value given: any type whatever, of any size, empty
or not. It has no body, so what is shown of the machine is shown for every choice of it. It comes with a
linear order because State must be comparable, and every type has one; the block never uses the order
(log 14). -/
opaque Config.linkErrorType : LinOrd.{0}

/-- R12 `LinkError`: the link's error values, carried and never inspected (R171). -/
abbrev LinkError : Type := Config.linkErrorType

/-- What the link answers to one call (R28, R47), with the type of its error values an argument, as R12
has it. -/
inductive LinkAnswerOf (ε : Type) where
  /-- The call returns; `driven` are the bytes the card drives back (log 5). -/
  | ok (driven : List Byte)
  /-- The call fails with `e`; the first `reached` outbound bytes reached the card (R48; log 6). -/
  | err (e : ε) (reached : Nat)
  /-- The call never returns (R197). -/
  | silent
deriving DecidableEq, Repr, Inhabited

/-- The answers of this machine's link. -/
abbrev LinkAnswer := LinkAnswerOf LinkError

/-- FREE VALUE (log 4): the link's answer to the call numbered `callNo`, where State lists none. R47
lets the link answer anything, so nothing constrains it. -/
opaque Config.linkAnswer : (callNo : Nat) → LinkAnswer

/-- FREE VALUE (log 5): an inbound byte of call `callNo` that the listed answer does not name. -/
opaque Config.inboundByte : (callNo remaining : Nat) → Byte

end Sys2Proof
end

