-- ==== Sys2Proof/Syntax.lean ====
section
/-! DEFINITION. The nine operations (00_scope.md R4), the request record (30_encoding.md R66), the command frame (R60) and the link calls (20_memory.md R47). -/

namespace Sys2Proof

/-- The operations of the block with the operands each reads (R64, R67, R71). -/
inductive Instr where
  /-- `CRC7 [b0, …]` (R86). -/
  | crc7 (data : List Byte)
  /-- `WRITE_CMD idx, arg` (R104); the index port is 8 bits wide (R13). -/
  | writeCmd (idx : BitVec 8) (arg : Arg)
  /-- `READ_R1` (R124). -/
  | readR1
  /-- `READ_R4` (R126). -/
  | readR4
  /-- `READ_R16` (R128). -/
  | readR16
  /-- `WRITE_DATA [b0, …]` (R141). -/
  | writeData (data : List Byte)
  /-- `READ_DATA n` (R145). -/
  | readData (n : Nat)
  /-- `FLUSH` (R149). -/
  | flush
  /-- `IS_BUSY` (R153). -/
  | isBusy
deriving DecidableEq, Repr

/-- The request record (R66). -/
structure Request where
  op   : BitVec 4
  idx  : BitVec 8
  arg  : Arg
  n    : Nat
  data : List Byte
deriving DecidableEq, Repr

/-- The six bytes of a command frame, byte 0 sent first (R60). -/
structure CmdFrame where
  f0 : Byte
  f1 : Byte
  f2 : Byte
  f3 : Byte
  f4 : Byte
  f5 : Byte
deriving DecidableEq, Repr

/-- A link call with its outbound bytes, the first sent first (R47). -/
inductive LinkCall where
  /-- `LinkWrite(s)`: collaborator (b), returns nothing. -/
  | write (out : List Byte)
  /-- `LinkTransfer(s)`: collaborator (a), returns as many bytes as it sends. -/
  | transfer (out : List Byte)
  /-- `LinkTransferInPlace(s)`: collaborator (c), the same on the wire (R49). -/
  | transferInPlace (out : List Byte)
deriving DecidableEq, Repr

end Sys2Proof
end

