-- ==== Sys2Proof/Machine/State.lean ====
section
/-! DEFINITION. The block's state record (10_state.md R23), its completion record (30_encoding.md R67), the environment as plain data (20_memory.md R47), the reasons a step can stop, and reset (70_reset_and_hazards.md R190). -/

namespace Sys2Proof.Machine

/-- Whether an operation is in progress (R23). -/
inductive Phase where
  | idle
  | running
deriving DecidableEq, Repr

/-- The completion record (R67), with the type of the link's error values an argument (R12). A LINK_ERR
completion carries the error and nothing else: its value, busy and rdata have no value, and a claim
cannot read them (R172). -/
inductive CompletionOf (ε : Type) where
  /-- status OK. -/
  | ok (value : Value) (busy : Bool) (rdata : List Byte)
  /-- status LINK_ERR. -/
  | linkErr (e : ε)
deriving DecidableEq, Repr

/-- The completions of this machine. -/
abbrev Completion := CompletionOf LinkError

/-- A link call the block made and the outbound bytes of it that reached the card (R48, R54). -/
structure LinkEvent where
  call    : LinkCall
  reached : List Byte
deriving DecidableEq, Repr

/-- The reset input. `asserted inFlight` resets the block at the next step; `inFlight = some n`: a
link call is in progress, and its first `n` outbound bytes have been sent (R191; log 17). -/
inductive ResetLine where
  | released
  | asserted (inFlight : Option Nat)
deriving DecidableEq, Repr

section

/- State can be written out where the link's error values, the parameter of R12, can. -/
variable [Repr LinkError]

structure State where
  /-- R23. -/
  phase       : Phase
  /-- R23: the accepted request. -/
  req         : Request
  /-- R23: the operation's script. -/
  calls       : List LinkCall
  /-- R23: index of the next link call. -/
  k           : Nat
  /-- R23: inbound bytes of the calls completed so far, in order. -/
  inb         : List (List Byte)
  /-- R23, R81: the CRC register. -/
  crc         : Crc
  /-- R23: the framer's buffer. -/
  frame       : CmdFrame
  /-- R23, R121: the response accumulator. -/
  acc         : Value
  /-- The completion records presented so far, oldest first; the requester has taken each (log 9). -/
  completions : List Completion
  /-- The parameters (R12); no step changes them. -/
  cfg         : Params
  /-- ENVIRONMENT: the requests still to be accepted; the head is on the request port (log 3). -/
  requester   : List Request
  /-- ENVIRONMENT: the link's coming answers, the next one first (log 4). -/
  answers     : List LinkAnswer
  /-- ENVIRONMENT: the link calls made, oldest first; the link's and the card's side of R22. -/
  traffic     : List LinkEvent
  /-- ENVIRONMENT: the reset input (log 17). -/
  resetLine   : ResetLine
deriving DecidableEq, Repr

end

/-- The reasons a step can stop without a next state. -/
inductive Fault where
  /-- Raised by a link call the link never answers: the block stays RUNNING and has no further step
  (R28, R197, 93_implementation_defined.md I9 `stuck`). Safe (log 7). -/
  | linkNeverAnswers
deriving DecidableEq, Repr

/-- The requests the block gives no meaning. -/
inductive Refusal where
  /-- Raised by an arm of `exec` that has no meaning yet; no arm of this model does. Safe. -/
  | notModelled (mnemonic : String)
  /-- Raised when the presented request has an op code 0x9..0xF (R69, R173). Safe. -/
  | unassignedOp (op : BitVec 4)
  /-- Raised by WRITE_CMD at acceptance, index 64..255 under policy `refuse` (R174). Safe. -/
  | oversizeIndex (idx : BitVec 8)
  /-- Raised by CRC7, WRITE_DATA and READ_DATA at acceptance, length over a bounded MAX_DATA_LEN
  (R175). Safe. -/
  | oversizeBuffer (len : Nat)
deriving DecidableEq, Repr

/-- Right after reset: IDLE, no completion pending (R190). The operation-local fields, which R190
leaves unspecified, hold zero (DESIGN CHOICE, log 10); the environment holds nothing. -/
def State.reset : State :=
  { phase := .idle
    req := { op := 0#4, idx := 0#8, arg := 0#32, n := 0, data := [] }
    calls := []
    k := 0
    inb := []
    crc := 0#7
    frame := { f0 := 0#8, f1 := 0#8, f2 := 0#8, f3 := 0#8, f4 := 0#8, f5 := 0#8 }
    acc := 0#128
    completions := []
    cfg := Params.thisBlock
    requester := []
    answers := []
    traffic := []
    resetLine := .released }

end Sys2Proof.Machine
end

