-- ==== Sys2Proof/Machine/Flags.lean ====
section
/-! DEFINITION. The block's only flag, `busy` (10_state.md R24), and the completion status code (60_exceptions.md R177). -/

namespace Sys2Proof.Machine

/-- R65, R153: busy unless the sampled byte is exactly 0xFF. -/
def busyOf (b : Byte) : Bool :=
  b != Config.sentinel

/-- The busy bit from the inbound bytes of IS_BUSY, which are `[[b0]]` (R153); with no byte sampled,
which no run reaches, it is not set (log 19). -/
def busyFlag (inb : List (List Byte)) : Bool :=
  inb.flatten.head?.elim false busyOf

/-- R177: OK = 0, LINK_ERR = 1. -/
def statusCode {ε : Type} : CompletionOf ε → BitVec 1
  | .ok _ _ _ => 0#1
  | .linkErr _ => 1#1

end Sys2Proof.Machine
end

