-- ==== Sys2Proof/Decode.lean ====
section
/-! DEFINITION. Decoding a request record to an operation (30_encoding.md R64, R66, R69), total and rejecting by name, and the encoder. -/

namespace Sys2Proof

/-- What the decoder reads from a request: an operation, or the unassigned code (R69). -/
inductive Decoded where
  | instr (i : Instr)
  | unassigned (op : BitVec 4)
deriving DecidableEq, Repr

/-- R64: the operation a 4-bit op code selects, with the request fields R67 says it reads; codes
0x9..0xF spell no operation (R69). -/
def decode (r : Request) : Decoded :=
  match r.op.toNat with
  | 0x0 => .instr (.crc7 r.data)
  | 0x1 => .instr (.writeCmd r.idx r.arg)
  | 0x2 => .instr .readR1
  | 0x3 => .instr .readR4
  | 0x4 => .instr .readR16
  | 0x5 => .instr (.writeData r.data)
  | 0x6 => .instr (.readData r.n)
  | 0x7 => .instr .flush
  | 0x8 => .instr .isBusy
  | _ => .unassigned r.op

/-- A request with every field but the op code zero or empty. -/
def Request.ofOp (op : BitVec 4) : Request :=
  { op := op, idx := 0#8, arg := 0#32, n := 0, data := [] }

/-- The request record that asks for an operation: its op code (R64) and the fields it reads (R67),
every ignored field zero or empty. -/
def encode : Instr → Request
  | .crc7 data => { Request.ofOp 0x0#4 with data := data }
  | .writeCmd idx arg => { Request.ofOp 0x1#4 with idx := idx, arg := arg }
  | .readR1 => Request.ofOp 0x2#4
  | .readR4 => Request.ofOp 0x3#4
  | .readR16 => Request.ofOp 0x4#4
  | .writeData data => { Request.ofOp 0x5#4 with data := data }
  | .readData n => { Request.ofOp 0x6#4 with n := n }
  | .flush => Request.ofOp 0x7#4
  | .isBusy => Request.ofOp 0x8#4

/-- The part of a request its operation reads: the fields 30_encoding.md R67 names for the op code; the
ignored fields (R66) are zero or empty. -/
def Request.readPart (r : Request) : Request :=
  { op := r.op
    idx := if r.op = 0x1#4 then r.idx else 0#8
    arg := if r.op = 0x1#4 then r.arg else 0#32
    n := if r.op = 0x6#4 then r.n else 0
    data := if r.op = 0x0#4 ∨ r.op = 0x5#4 then r.data else [] }

/-- The request a word of the opcode table stands for: the table numbers the op field's bits 3:0 and
no other (its mask is 0xF), so the op code is the word's low four bits and every operand is zero or
empty (log 1). -/
def Request.ofTableWord (nbits w : Nat) : Request :=
  Request.ofOp (BitVec.ofNat 4 (w % 2 ^ nbits))

/-- The operation the decoder reads from a word of the opcode table. -/
def decodeTableWord (nbits w : Nat) : Option Instr :=
  match decode (Request.ofTableWord nbits w) with
  | .instr i => some i
  | .unassigned _ => none

end Sys2Proof
end

