-- ==== Sys2Proof/Machine/Generator.lean ====
section
/-! DEFINITION. The CRC-7 generator (40_crc7.md R80 to R85) as a function of a byte sequence. -/

namespace Sys2Proof.Machine

/-- R82 `step_bit`: one input bit into the CRC register, x^7 + x^3 + 1. -/
def stepBit (crc : Crc) (b : Bool) : Crc :=
  let nxt : Crc := crc.extractLsb' 0 6 ++ 0#1
  if b ^^ crc.getLsbD 6 then nxt ^^^ Config.crcPoly else nxt

/-- Feed bits to the register, the head first. -/
def stepBits (crc : Crc) (bits : List Bool) : Crc :=
  bits.foldl stepBit crc

/-- The bits of a byte, most significant first (R45, R83). -/
def byteBits (b : Byte) : List Bool :=
  [b.getLsbD 7, b.getLsbD 6, b.getLsbD 5, b.getLsbD 4, b.getLsbD 3, b.getLsbD 2, b.getLsbD 1, b.getLsbD 0]

/-- The bits of a remainder, most significant first (R87). -/
def remBits (c : Crc) : List Bool :=
  [c.getLsbD 6, c.getLsbD 5, c.getLsbD 4, c.getLsbD 3, c.getLsbD 2, c.getLsbD 1, c.getLsbD 0]

/-- The inner loop of R83: one byte into the register. -/
def stepByte (crc : Crc) (b : Byte) : Crc :=
  stepBits crc (byteBits b)

/-- The outer loop of R83: bytes into the register, the head first. -/
def stepBytes (crc : Crc) (s : List Byte) : Crc :=
  s.foldl stepByte crc

/-- R83 `crc7_rem`. -/
def crc7Rem (s : List Byte) : Crc :=
  stepBytes Config.crcInit s

/-- R84: the remainder in bits 7:1, the stop bit 1 in bit 0. -/
def checkByte (crc : Crc) : Byte :=
  crc ++ 1#1

/-- R84 `crc7_byte`. -/
def crc7Byte (s : List Byte) : Byte :=
  checkByte (crc7Rem s)

/-- A register value from its bits, bit 6 first. -/
def crcOfBits (b6 b5 b4 b3 b2 b1 b0 : Bool) : Crc :=
  BitVec.ofBool b6 ++ BitVec.ofBool b5 ++ BitVec.ofBool b4 ++ BitVec.ofBool b3 ++
    BitVec.ofBool b2 ++ BitVec.ofBool b1 ++ BitVec.ofBool b0

/-- R85, the byte-parallel equations: a form an implementation may use in place of `stepByte`. -/
def stepByteParallel (c : Crc) (d : Byte) : Crc :=
  crcOfBits
    (c.getLsbD 6 ^^ c.getLsbD 5 ^^ c.getLsbD 2 ^^ d.getLsbD 7 ^^ d.getLsbD 6 ^^ d.getLsbD 3)
    (c.getLsbD 5 ^^ c.getLsbD 4 ^^ c.getLsbD 1 ^^ d.getLsbD 6 ^^ d.getLsbD 5 ^^ d.getLsbD 2)
    (c.getLsbD 4 ^^ c.getLsbD 3 ^^ c.getLsbD 0 ^^ d.getLsbD 5 ^^ d.getLsbD 4 ^^ d.getLsbD 1)
    (c.getLsbD 3 ^^ c.getLsbD 2 ^^ d.getLsbD 4 ^^ d.getLsbD 3 ^^ d.getLsbD 0)
    (c.getLsbD 5 ^^ c.getLsbD 1 ^^ d.getLsbD 6 ^^ d.getLsbD 2)
    (c.getLsbD 4 ^^ c.getLsbD 0 ^^ d.getLsbD 5 ^^ d.getLsbD 1)
    (c.getLsbD 6 ^^ c.getLsbD 3 ^^ d.getLsbD 7 ^^ d.getLsbD 4 ^^ d.getLsbD 0)

/-- R85, the table `T`, as the spec prints it: row = high nibble, column = low nibble. -/
def crcTable : List Nat :=
  [0x00, 0x09, 0x12, 0x1B, 0x24, 0x2D, 0x36, 0x3F, 0x48, 0x41, 0x5A, 0x53, 0x6C, 0x65, 0x7E, 0x77] ++
  [0x19, 0x10, 0x0B, 0x02, 0x3D, 0x34, 0x2F, 0x26, 0x51, 0x58, 0x43, 0x4A, 0x75, 0x7C, 0x67, 0x6E] ++
  [0x32, 0x3B, 0x20, 0x29, 0x16, 0x1F, 0x04, 0x0D, 0x7A, 0x73, 0x68, 0x61, 0x5E, 0x57, 0x4C, 0x45] ++
  [0x2B, 0x22, 0x39, 0x30, 0x0F, 0x06, 0x1D, 0x14, 0x63, 0x6A, 0x71, 0x78, 0x47, 0x4E, 0x55, 0x5C] ++
  [0x64, 0x6D, 0x76, 0x7F, 0x40, 0x49, 0x52, 0x5B, 0x2C, 0x25, 0x3E, 0x37, 0x08, 0x01, 0x1A, 0x13] ++
  [0x7D, 0x74, 0x6F, 0x66, 0x59, 0x50, 0x4B, 0x42, 0x35, 0x3C, 0x27, 0x2E, 0x11, 0x18, 0x03, 0x0A] ++
  [0x56, 0x5F, 0x44, 0x4D, 0x72, 0x7B, 0x60, 0x69, 0x1E, 0x17, 0x0C, 0x05, 0x3A, 0x33, 0x28, 0x21] ++
  [0x4F, 0x46, 0x5D, 0x54, 0x6B, 0x62, 0x79, 0x70, 0x07, 0x0E, 0x15, 0x1C, 0x23, 0x2A, 0x31, 0x38] ++
  [0x41, 0x48, 0x53, 0x5A, 0x65, 0x6C, 0x77, 0x7E, 0x09, 0x00, 0x1B, 0x12, 0x2D, 0x24, 0x3F, 0x36] ++
  [0x58, 0x51, 0x4A, 0x43, 0x7C, 0x75, 0x6E, 0x67, 0x10, 0x19, 0x02, 0x0B, 0x34, 0x3D, 0x26, 0x2F] ++
  [0x73, 0x7A, 0x61, 0x68, 0x57, 0x5E, 0x45, 0x4C, 0x3B, 0x32, 0x29, 0x20, 0x1F, 0x16, 0x0D, 0x04] ++
  [0x6A, 0x63, 0x78, 0x71, 0x4E, 0x47, 0x5C, 0x55, 0x22, 0x2B, 0x30, 0x39, 0x06, 0x0F, 0x14, 0x1D] ++
  [0x25, 0x2C, 0x37, 0x3E, 0x01, 0x08, 0x13, 0x1A, 0x6D, 0x64, 0x7F, 0x76, 0x49, 0x40, 0x5B, 0x52] ++
  [0x3C, 0x35, 0x2E, 0x27, 0x18, 0x11, 0x0A, 0x03, 0x74, 0x7D, 0x66, 0x6F, 0x50, 0x59, 0x42, 0x4B] ++
  [0x17, 0x1E, 0x05, 0x0C, 0x33, 0x3A, 0x21, 0x28, 0x5F, 0x56, 0x4D, 0x44, 0x7B, 0x72, 0x69, 0x60] ++
  [0x0E, 0x07, 0x1C, 0x15, 0x2A, 0x23, 0x38, 0x31, 0x46, 0x4F, 0x54, 0x5D, 0x62, 0x6B, 0x70, 0x79]

/-- R85, the table form: `crc' = T[((crc << 1) ^ d) & 0xFF]`. -/
def stepByteTable (c : Crc) (d : Byte) : Crc :=
  BitVec.ofNat 7 (crcTable.getD ((c ++ 0#1 : Byte) ^^^ d).toNat 0)

end Sys2Proof.Machine
end

