-- ==== Sys2Proof/Machine/Framer.lean ====
section
/-! DEFINITION. The command framer (41_command_framer.md R100 to R104) and the check of a received frame (30_encoding.md R60 to R63). -/

namespace Sys2Proof.Machine

/-- R101: `0x40 | (idx & 0x3F)`. -/
def framingByte (idx : BitVec 8) : Byte :=
  Config.frameMarker ||| (idx &&& 0x3F#8)

/-- R104 `frame(idx, arg)`: the marker and index, the argument big-endian (R42, R102), the check
byte of the five (R103). -/
def cmdFrame (idx : BitVec 8) (arg : Arg) : CmdFrame :=
  let f0 := framingByte idx
  let f1 := arg.extractLsb' 24 8
  let f2 := arg.extractLsb' 16 8
  let f3 := arg.extractLsb' 8 8
  let f4 := arg.extractLsb' 0 8
  { f0, f1, f2, f3, f4, f5 := crc7Byte [f0, f1, f2, f3, f4] }

/-- The frame in the order it is sent (R60). -/
def frameBytes (f : CmdFrame) : List Byte :=
  [f.f0, f.f1, f.f2, f.f3, f.f4, f.f5]

/-- The frame as one 48-bit value `F`, byte 0 in bits 47:40 (R60). -/
def frameBits (f : CmdFrame) : BitVec 48 :=
  f.f0 ++ f.f1 ++ f.f2 ++ f.f3 ++ f.f4 ++ f.f5

/-- R63: the frame the block can produce, marker `01` and byte 5 the check byte of the rest. -/
def frameValid (f : CmdFrame) : Bool :=
  f.f0.extractLsb' 6 2 == 0b01#2 && f.f5 == crc7Byte [f.f0, f.f1, f.f2, f.f3, f.f4]

/-- R63: the index of a frame. -/
def frameIndex (f : CmdFrame) : BitVec 6 :=
  f.f0.extractLsb' 0 6

/-- R63: the argument of a frame. -/
def frameArg (f : CmdFrame) : Arg :=
  f.f1 ++ f.f2 ++ f.f3 ++ f.f4

/-- R63 as a decoder: the index and argument of a valid six-byte sequence. -/
def decodeFrame : List Byte → Option (BitVec 6 × Arg)
  | [f0, f1, f2, f3, f4, f5] =>
    let f : CmdFrame := { f0, f1, f2, f3, f4, f5 }
    if frameValid f then some (frameIndex f, frameArg f) else none
  | _ => none

/-- The frame buffer before any frame is built: six zero bytes (log 10, log 11). -/
def blankFrame : CmdFrame :=
  { f0 := 0#8, f1 := 0#8, f2 := 0#8, f3 := 0#8, f4 := 0#8, f5 := 0#8 }

/-- The initial value of the frame buffer, "built from req" (10_state.md R23): the frame of a
WRITE_CMD; no rule frames any other operation, which leaves it blank (log 11). -/
def frameBuffer : Instr → CmdFrame
  | .crc7 _ => blankFrame
  | .writeCmd idx arg => cmdFrame idx arg
  | .readR1 => blankFrame
  | .readR4 => blankFrame
  | .readR16 => blankFrame
  | .writeData _ => blankFrame
  | .readData _ => blankFrame
  | .flush => blankFrame
  | .isBusy => blankFrame

end Sys2Proof.Machine
end

