-- ==== Sys2Proof/Machine/Operands.lean ====
section
/-! DEFINITION. The operand and result forms: the sentinel fill (30_encoding.md R65), the link-call script of each operation (10_state.md R27, 20_memory.md R50), the link calls' outbound and inbound bytes (R47), big-endian values (42_response_deserializer.md R121, R122) and the READ_DATA buffer (43_link_operations.md R145). -/

namespace Sys2Proof.Machine

/-- `repeat(0xFF, n)` (R15, R65). -/
def sentinels (n : Nat) : List Byte :=
  List.replicate n Config.sentinel

/-- R27 `script(r)`: the link calls of an operation, a function of the request alone. -/
def script (p : Params) : Instr → List LinkCall
  | .crc7 _ => []                                              -- R86
  | .writeCmd idx arg => [.write (frameBytes (cmdFrame idx arg))] -- R104
  | .readR1 => [.transfer (sentinels 1)]                       -- R124
  | .readR4 => [.transfer (sentinels 4)]                       -- R126
  | .readR16 => [.transfer (sentinels 16)]                     -- R128
  | .writeData data => [.write data]                           -- R141, R143
  | .readData n => [.transferInPlace (sentinels n)]            -- R145, R143
  | .flush => List.replicate p.flushCount (.transfer (sentinels 1)) -- R149
  | .isBusy => [.transfer (sentinels 1)]                       -- R153

/-- The outbound bytes of a call, in the order sent (R47). -/
def callOut : LinkCall → List Byte
  | .write out => out
  | .transfer out => out
  | .transferInPlace out => out

/-- How many bytes a call returns on ok: none for a write, as many as it sends for a transfer (R47). -/
def callInLen : LinkCall → Nat
  | .write _ => 0
  | .transfer out => out.length
  | .transferInPlace out => out.length

/-- Exactly `len` inbound bytes of call `callNo`: the bytes the card drives, in order; a byte the
answer does not name is a free value, a byte past the call's length is not received (log 5). -/
def inboundFill (callNo : Nat) : (len : Nat) → (driven : List Byte) → List Byte
  | 0, _ => []
  | len + 1, b :: rest => b :: inboundFill callNo len rest
  | len + 1, [] => Config.inboundByte callNo len :: inboundFill callNo len []

/-- The inbound bytes a call returns on ok (R47): of the right length, whatever the answer. -/
def callInbound (callNo : Nat) (c : LinkCall) (driven : List Byte) : List Byte :=
  inboundFill callNo (callInLen c) driven

/-- The link's answer to call `callNo`: the first one listed, past the list what `more` says. -/
def answerFrom {ε : Type} (more : Nat → LinkAnswerOf ε) (callNo : Nat) :
    List (LinkAnswerOf ε) → LinkAnswerOf ε
  | a :: _ => a
  | [] => more callNo

/-- This machine's link: past the list, the answer is a free value (log 4). -/
def answerAt (callNo : Nat) (answers : List LinkAnswer) : LinkAnswer :=
  answerFrom Config.linkAnswer callNo answers

/-- R121: one inbound byte into the accumulator, at the least significant end. -/
def accShift (acc : Value) (b : Byte) : Value :=
  (acc <<< 8) ||| b.setWidth 128

/-- R121: inbound bytes into the accumulator, in the order received. -/
def accBytes (acc : Value) (s : List Byte) : Value :=
  s.foldl accShift acc

/-- R122 `be(s)`: the first byte received is the most significant. -/
def be : List Byte → Nat
  | [] => 0
  | b :: rest => b.toNat * 2 ^ (8 * rest.length) + be rest

/-- R16 `MemWrite(addr, n, v)`: bytes into the result buffer from an offset. -/
def memWrite (buf : List Byte) (addr : Nat) : List Byte → List Byte
  | [] => buf
  | b :: rest => memWrite (buf.set addr b) (addr + 1) rest

/-- R144, R145: the n-byte buffer, set to sentinels before the exchange, then overwritten with the
inbound bytes, byte i at offset i. -/
def readBuffer (n : Nat) (s : List Byte) : List Byte :=
  memWrite (sentinels n) 0 s

end Sys2Proof.Machine
end

