-- ==== Sys2Proof/WellFormed.lean ====
section
/-! DEFINITION. The checks on an operation that depend on the parameters: the index policy (60_exceptions.md R174) and the buffer bound (R175). -/

namespace Sys2Proof

/-- Why a request is refused before any link call (R174, R175). -/
inductive IllFormed where
  | oversizeIndex (idx : BitVec 8)
  | oversizeBuffer (len : Nat)
deriving DecidableEq, Repr

/-- `len` is within MAX_DATA_LEN (R175). -/
def Params.fits (p : Params) (len : Nat) : Bool :=
  match p.maxDataLen with
  | none => true
  | some m => len ≤ m

/-- R175: a buffer longer than MAX_DATA_LEN. -/
def Params.checkLength (p : Params) (len : Nat) : Option IllFormed :=
  if p.fits len then none else some (.oversizeBuffer len)

/-- R174: an index 64..255 under policy `refuse`; under `mask` it is no error. -/
def Params.checkIndex (p : Params) (idx : BitVec 8) : Option IllFormed :=
  match p.oversize with
  | .mask => none
  | .refuse => if idx.toNat < 64 then none else some (.oversizeIndex idx)

/-- The one check of an operation, `none` when it is well formed. No other request is refused (R176). -/
def Instr.check (p : Params) : Instr → Option IllFormed
  | .crc7 data => p.checkLength data.length
  | .writeCmd idx _ => p.checkIndex idx
  | .readR1 => none
  | .readR4 => none
  | .readR16 => none
  | .writeData data => p.checkLength data.length
  | .readData n => p.checkLength n
  | .flush => none
  | .isBusy => none

/-- An operation the block accepts under parameters `p`. -/
abbrev Instr.WellFormed (p : Params) (i : Instr) : Prop := i.check p = none

end Sys2Proof
end

