-- ==== Sys2Proof/Machine/Ops.lean ====
section
/-! DEFINITION. The operation engine (10_state.md R26 to R29), the one shared error operation (60_exceptions.md R171), reset of the block (70_reset_and_hazards.md R191) and the request port. -/

namespace Sys2Proof.Machine

/-- What a step answers. -/
abbrev Out := Host.Outcome State Fault Refusal

/-- R174, R175: the refusal an ill-formed request meets when it is presented. -/
def refusalOf (p : Params) (i : Instr) : Option Refusal :=
  match i.check p with
  | none => none
  | some (.oversizeIndex idx) => some (.oversizeIndex idx)
  | some (.oversizeBuffer len) => some (.oversizeBuffer len)

/-- R26 accept, all but `req` (which `State.fetch` latches): the operation-local fields take their
initial values (R23) and the block is RUNNING. -/
def State.load (calls : List LinkCall) (frame : CmdFrame) (s : State) : State :=
  { s with
    calls := calls
    k := 0
    inb := []
    crc := Config.crcInit
    frame := frame
    acc := 0#128
    phase := .running }

/-- R29: present a completion record and return to IDLE. -/
def State.complete (c : Completion) (s : State) : State :=
  { s with completions := s.completions ++ [c], phase := .idle }

/-- R29, R67: complete with status OK. -/
def State.completeOk (value : Value) (busy : Bool) (rdata : List Byte) (s : State) : State :=
  s.complete (.ok value busy rdata)

/-- R16 `raise LinkError(e)`, R171: the operation ends, with the link's own error and no further call.
It is no trap: nothing is saved, nothing is entered, and there is nothing to return from (R180). -/
def State.raiseLinkError (e : LinkError) (s : State) : State :=
  s.complete (.linkErr e)

/-- The link's answer to the next call (R47; log 4). -/
def State.nextAnswer (s : State) : LinkAnswer :=
  answerAt s.traffic.length s.answers

/-- The link's side of one call: the first `reached` outbound bytes reach the card and the answer is
used up (R48, R54). -/
def State.sendCall (c : LinkCall) (reached : Nat) (s : State) : State :=
  { s with
    traffic := s.traffic ++ [{ call := c, reached := (callOut c).take reached }]
    answers := s.answers.tail }

/-- R28, the case ok: the inbound bytes are kept, `k` moves on, and `absorb` is what the accumulator
does with them (R121). -/
def State.receive (c : LinkCall) (driven : List Byte) (absorb : Value → List Byte → Value)
    (s : State) : State :=
  let got := callInbound s.traffic.length c driven
  { s.sendCall c (callOut c).length with
    inb := s.inb ++ [got]
    k := s.k + 1
    acc := absorb s.acc got }

/-- R28: issue one link call and take the link's answer. -/
def State.linkCall (c : LinkCall) (absorb : Value → List Byte → Value) (s : State) : Out :=
  match s.nextAnswer with
  | .ok driven => .next (s.receive c driven absorb)
  | .err e reached => .next ((s.sendCall c reached).raiseLinkError e)
  | .silent => .fault .linkNeverAnswers

/-- The accumulator of an operation that is no read response: inbound bytes do not enter it (R121). -/
def ignoreInbound (acc : Value) (_ : List Byte) : Value := acc

/-- One step of operation `i` (R26, R28, R29): at IDLE it is accepted, or refused (R174, R175); while
RUNNING its next link call is made; when no call is left it finishes. -/
def State.operate (i : Instr) (absorb : Value → List Byte → Value) (finish : State → State)
    (s : State) : Out :=
  match s.phase with
  | .idle =>
    match refusalOf s.cfg i with
    | some r => .refused r
    | none => .next (s.load (script s.cfg i) (frameBuffer i))
  | .running =>
    match s.calls[s.k]? with
    | some c => s.linkCall c absorb
    | none => .next (finish s)

/-- The request the block works on: the one it is running, or at IDLE the one on the port, which is
latched into `req` and leaves the port (R26). A request presented while RUNNING stays on the port
(R196). At IDLE with nothing presented there is none (log 3). -/
def State.fetch (s : State) : Option (Request × State) :=
  match s.phase with
  | .running => some (s.req, s)
  | .idle =>
    match s.requester with
    | [] => none
    | r :: rest => some (r, { s with req := r, requester := rest })

/-- R191: what an interrupted link call leaves on the link. The call is not finished; the bytes
already sent reached the card, and its answer is lost. -/
def State.abandonCall (inFlight : Option Nat) (s : State) : State :=
  match s.phase, s.calls[s.k]?, inFlight with
  | .running, some c, some n => s.sendCall c n
  | _, _, _ => s

/-- R190, R191: reset of the block. The operation in progress is abandoned with no completion; the
link, the card and the requester are not reset. -/
def State.blockReset (inFlight : Option Nat) (s : State) : State :=
  let left := s.abandonCall inFlight
  { State.reset with
    completions := left.completions
    cfg := left.cfg
    requester := left.requester
    answers := left.answers
    traffic := left.traffic }

end Sys2Proof.Machine
end

