-- ==== Sys2Proof/Machine/Auxiliary.lean ====
section
/-! DEFINITION. The auxiliary link operations WRITE_DATA, READ_DATA, FLUSH and IS_BUSY (43_link_operations.md R141, R145, R149, R153). -/

namespace Sys2Proof.Machine

/-- `WRITE_DATA` (R141): one write of the buffer, verbatim, also when it is empty (R143). -/
def execWriteData (data : List Byte) (s : State) : Out :=
  s.operate (.writeData data) ignoreInbound (State.completeOk 0#128 false [])

/-- R145 finish: the inbound bytes are the result buffer. -/
def finishReadData (n : Nat) (s : State) : State :=
  s.completeOk 0#128 false (readBuffer n s.inb.flatten)

/-- `READ_DATA` (R145): one in-place transfer of n sentinels, also when n is 0 (R143). -/
def execReadData (n : Nat) (s : State) : Out :=
  s.operate (.readData n) ignoreInbound (finishReadData n)

/-- `FLUSH` (R149): FLUSH_COUNT single-byte exchanges, every inbound byte discarded. -/
def execFlush (s : State) : Out :=
  s.operate .flush ignoreInbound (State.completeOk 0#128 false [])

/-- R153 finish: the busy bit of the one sampled byte. -/
def finishIsBusy (s : State) : State :=
  s.completeOk 0#128 (busyFlag s.inb) []

/-- `IS_BUSY` (R153): one sample, no loop (R151). -/
def execIsBusy (s : State) : Out :=
  s.operate .isBusy ignoreInbound finishIsBusy

end Sys2Proof.Machine
end

