-- ==== Sys2Proof/Machine/Checksum.lean ====
section
/-! DEFINITION. The CRC7 operation (40_crc7.md R86). -/

namespace Sys2Proof.Machine

/-- R86 finish: the input goes through the CRC register, which acceptance set to 0, and the check
byte is the value. -/
def finishCrc7 (data : List Byte) (s : State) : State :=
  let crc := stepBytes s.crc data
  { s with crc := crc }.completeOk ((checkByte crc).setWidth 128) false []

/-- `CRC7` (R86): no link call, so it cannot fail. -/
def execCrc7 (data : List Byte) (s : State) : Out :=
  s.operate (.crc7 data) ignoreInbound (finishCrc7 data)

end Sys2Proof.Machine
end

