-- ==== Sys2Proof/Machine/Command.lean ====
section
/-! DEFINITION. The WRITE_CMD operation (41_command_framer.md R104, R105). -/

namespace Sys2Proof.Machine

/-- `WRITE_CMD` (R104): one write of the frame, no response read. -/
def execWriteCmd (idx : BitVec 8) (arg : Arg) (s : State) : Out :=
  s.operate (.writeCmd idx arg) ignoreInbound (State.completeOk 0#128 false [])

end Sys2Proof.Machine
end

