-- ==== Sys2Proof/Machine/Response.lean ====
section
/-! DEFINITION. The response deserializer's operations READ_R1, READ_R4 and READ_R16 (42_response_deserializer.md R124, R126, R128). -/

namespace Sys2Proof.Machine

/-- R121, R124, R126, R128 finish: the accumulator is the value; no bit of it is interpreted (R125,
R127, R129). -/
def finishResponse (s : State) : State :=
  s.completeOk s.acc false []

/-- `READ_R1` (R124). -/
def execReadR1 (s : State) : Out :=
  s.operate .readR1 accBytes finishResponse

/-- `READ_R4` (R126). -/
def execReadR4 (s : State) : Out :=
  s.operate .readR4 accBytes finishResponse

/-- `READ_R16` (R128). -/
def execReadR16 (s : State) : Out :=
  s.operate .readR16 accBytes finishResponse

end Sys2Proof.Machine
end

