-- ==== Sys2Proof/Machine/Dispatch.lean ====
section
/-! DEFINITION. Dispatch: one arm per operation of spec/opcode_table.json. -/

namespace Sys2Proof.Machine

/-- One step of an operation (10_state.md R26, R28, R29). -/
def exec (i : Instr) (s : State) : Host.Outcome State Fault Refusal :=
  match i with
  | .crc7 data => Sys2Proof.Machine.execCrc7 data s
  | .writeCmd idx arg => Sys2Proof.Machine.execWriteCmd idx arg s
  | .readR1 => Sys2Proof.Machine.execReadR1 s
  | .readR4 => Sys2Proof.Machine.execReadR4 s
  | .readR16 => Sys2Proof.Machine.execReadR16 s
  | .writeData data => Sys2Proof.Machine.execWriteData data s
  | .readData n => Sys2Proof.Machine.execReadData n s
  | .flush => Sys2Proof.Machine.execFlush s
  | .isBusy => Sys2Proof.Machine.execIsBusy s

end Sys2Proof.Machine
end

