-- ==== Sys2Proof/Machine/Step.lean ====
section
/-! DEFINITION. One step of the block: reset if the reset line is asserted, otherwise one step of the operation the request decodes to. -/

namespace Sys2Proof.Machine

/-- One step. The reset line is looked at first (R191); then the request at hand is decoded, and its
operation takes one step (R26, R28, R29) or, its op code unassigned, is refused (R173). With no
operation and no request the block holds still (R188). When and how often reset arrives is not said by
the spec: no step asserts the line, so a run has a reset at its first step or none, and a later one is a
change of `resetLine` between two runs (DESIGN CHOICE, log 17). -/
def step (s : State) : Host.Outcome State Fault Refusal :=
  match s.resetLine with
  | .asserted inFlight => .next (s.blockReset inFlight)
  | .released =>
    match s.fetch with
    | none => .next s
    | some (r, s') =>
      match decode r with
      | .instr i => exec i s'
      | .unassigned op => .refused (.unassignedOp op)

/-- The block IDLE and out of reset, with the request a word of the opcode table stands for presented
before any other: the next step accepts exactly it (log 1, log 2). -/
def State.withFetchWord (s : State) (nbits w : Nat) : State :=
  { s with
    phase := .idle
    requester := Request.ofTableWord nbits w :: s.requester
    resetLine := .released }

end Sys2Proof.Machine
end

