-- ==== Sys2Proof/Machine/Functional.lean ====
section
/-! DEFINITION. The functional form of one operation (10_state.md R30): the completion and the link traffic as a function of the request and the link's answers, with none of the engine's registers, and with the type of the link's error values an argument (00_scope.md R12). The machine does not use it; claims compare the engine with it. -/

namespace Sys2Proof.Machine

/-- How the script of an operation ends (R28, R30). -/
inductive ScriptEnd (ε : Type) where
  /-- Every call answered ok; the inbound bytes of each, in order. -/
  | returned (ins : List (List Byte))
  /-- A call failed with this error. -/
  | failed (e : ε)
  /-- A call never answered. -/
  | diverged
deriving DecidableEq, Repr

/-- A run of a script: how it ends, the calls made, and the answers left. -/
structure ScriptRun (ε : Type) where
  ending  : ScriptEnd ε
  traffic : List LinkEvent
  answers : List (LinkAnswerOf ε)
deriving DecidableEq, Repr

/-- Put a completed call in front of a run. -/
def ScriptRun.after {ε : Type} (got : List Byte) (ev : LinkEvent) (r : ScriptRun ε) : ScriptRun ε :=
  { ending := match r.ending with
      | .returned ins => .returned (got :: ins)
      | .failed e => .failed e
      | .diverged => .diverged
    traffic := ev :: r.traffic
    answers := r.answers }

/-- The loop of R30 over a script. The link oracle of R30 is the listed answers and, past them, `more`;
`callNo` is the number of link calls made before. Which bytes of a call that never returns reached the
card is not said by the spec: the run records no event for that call (DESIGN CHOICE, log 22). -/
def runScript {ε : Type} (more : Nat → LinkAnswerOf ε) (callNo : Nat) :
    List LinkCall → List (LinkAnswerOf ε) → ScriptRun ε
  | [], answers => { ending := .returned [], traffic := [], answers := answers }
  | c :: rest, answers =>
    match answerFrom more callNo answers with
    | .ok driven =>
      (runScript more (callNo + 1) rest answers.tail).after (callInbound callNo c driven)
        { call := c, reached := callOut c }
    | .err e reached =>
      { ending := .failed e
        traffic := [{ call := c, reached := (callOut c).take reached }]
        answers := answers.tail }
    | .silent => { ending := .diverged, traffic := [], answers := answers }

/-- `finish(r, ins)` of each operation, as its rule writes it. -/
def finishOf {ε : Type} : Instr → List (List Byte) → CompletionOf ε
  | .crc7 data, _ => .ok ((crc7Byte data).setWidth 128) false []        -- R86
  | .writeCmd _ _, _ => .ok 0#128 false []                              -- R104
  | .readR1, ins => .ok (BitVec.ofNat 128 (be ins.flatten)) false []    -- R124
  | .readR4, ins => .ok (BitVec.ofNat 128 (be ins.flatten)) false []    -- R126
  | .readR16, ins => .ok (BitVec.ofNat 128 (be ins.flatten)) false []   -- R128
  | .writeData _, _ => .ok 0#128 false []                               -- R141
  | .readData _, ins => .ok 0#128 false ins.flatten                     -- R145
  | .flush, _ => .ok 0#128 false []                                     -- R149
  | .isBusy, ins => .ok 0#128 (busyFlag ins) []                         -- R153

/-- The completion R30 returns, `none` when the link never answers. -/
def completionOf {ε : Type} (i : Instr) : ScriptEnd ε → Option (CompletionOf ε)
  | .returned ins => some (finishOf i ins)
  | .failed e => some (.linkErr e)
  | .diverged => none

end Sys2Proof.Machine
end

