-- ==== Sys2Proof/Safety.lean ====
section
/-! DEFINITION. The terms claims are stated in: the engine's invariant, what is observable, a presented request and how an operation ends. -/

namespace Sys2Proof.Machine

/-- `n` steps, stopping at the first fault or refusal: `Host.Core.run Sys2Proof.core n s`
(`run_eq_hostRun` in Laws/Step.lean) over the names of this package. -/
def run : Nat → State → Host.Outcome State Fault Refusal
  | 0, s => .next s
  | n + 1, s =>
    match step s with
    | .next t => run n t
    | .fault r => .fault r
    | .refused r => .refused r

/-- The operations whose inbound bytes enter the accumulator (42_response_deserializer.md R121). -/
def isReadResponse : Instr → Bool
  | .readR1 => true
  | .readR4 => true
  | .readR16 => true
  | .crc7 _ => false
  | .writeCmd _ _ => false
  | .writeData _ => false
  | .readData _ => false
  | .flush => false
  | .isBusy => false

/-- What the operation-local fields hold while operation `i` is RUNNING (10_state.md R23, R26, R28). -/
structure RunningInv (i : Instr) (s : State) : Prop where
  wellFormed : i.WellFormed s.cfg
  calls_eq   : s.calls = script s.cfg i
  k_eq       : s.k = s.inb.length
  k_le       : s.k ≤ s.calls.length
  inb_len    : s.inb.map List.length = (s.calls.take s.k).map callInLen
  crc_eq     : s.crc = Config.crcInit
  frame_eq   : s.frame = frameBuffer i
  acc_eq     : s.acc = if isReadResponse i then accBytes 0#128 s.inb.flatten else 0#128

/-- The engine's invariant: while RUNNING, the accepted request decodes to an operation whose
`RunningInv` holds. It says nothing of an IDLE block, whose fields are unobservable (R21). -/
def Inv (s : State) : Prop :=
  s.phase = .running → ∃ i, decode s.req = .instr i ∧ RunningInv i s

/-- What can be seen of a state: every field but the operation-local ones (R21, R23). -/
structure Observed where
  phase       : Phase
  completions : List Completion
  cfg         : Params
  requester   : List Request
  answers     : List LinkAnswer
  traffic     : List LinkEvent
  resetLine   : ResetLine
deriving DecidableEq

def State.observe (s : State) : Observed :=
  { phase := s.phase
    completions := s.completions
    cfg := s.cfg
    requester := s.requester
    answers := s.answers
    traffic := s.traffic
    resetLine := s.resetLine }

/-- Two states that the outside cannot tell apart: equal, or IDLE and equal but for the operation-local
fields (R21). -/
def SameFromOutside (s t : State) : Prop :=
  s = t ∨ s.phase = .idle ∧ s.observe = t.observe

/-- An outcome with its state mapped. -/
def mapOut {α β φ ρ : Type} (f : α → β) : Host.Outcome α φ ρ → Host.Outcome β φ ρ
  | .next s => .next (f s)
  | .fault r => .fault r
  | .refused r => .refused r

/-- The block is IDLE and out of reset, and the requester presents `r`, then `rest` (R26). -/
structure Presented (r : Request) (rest : List Request) (s : State) : Prop where
  idle      : s.phase = .idle
  released  : s.resetLine = .released
  requester : s.requester = r :: rest

/-- From `s`, in `n` steps, an operation ends: the block is IDLE again with exactly one more
completion, `c`, and the link calls `events` made, and nothing else that can be seen has changed but
the accepted request gone from the port and the used answers gone from the link. -/
def EndsIn (n : Nat) (s : State) (c : Completion) (events : List LinkEvent)
    (answers : List LinkAnswer) (rest : List Request) : Prop :=
  ∃ t, run n s = .next t ∧
    t.observe =
      { s.observe with
        completions := s.completions ++ [c]
        traffic := s.traffic ++ events
        answers := answers
        requester := rest }

/-- A link call all of whose outbound bytes reached the card. -/
def sentWhole (c : LinkCall) : LinkEvent :=
  { call := c, reached := callOut c }

/-- A failing link call, the first `n` of whose outbound bytes reached the card (20_memory.md R48). -/
def sentPart (c : LinkCall) (n : Nat) : LinkEvent :=
  { call := c, reached := (callOut c).take n }

/-- The outbound byte stream on the link (20_memory.md R54). -/
def State.wire (s : State) : List Byte :=
  s.traffic.flatMap LinkEvent.reached

/-- Rename the link's error values, into any type (00_scope.md R12 `LinkError`). -/
def renameAnswer {ε ε' : Type} (f : ε → ε') : LinkAnswerOf ε → LinkAnswerOf ε'
  | .ok driven => .ok driven
  | .err e reached => .err (f e) reached
  | .silent => .silent

def renameCompletion {ε ε' : Type} (f : ε → ε') : CompletionOf ε → CompletionOf ε'
  | .ok value busy rdata => .ok value busy rdata
  | .linkErr e => .linkErr (f e)

/-- Rename the error values wherever the state holds one. -/
def State.rename (f : LinkError → LinkError) (s : State) : State :=
  { s with
    completions := s.completions.map (renameCompletion f)
    answers := s.answers.map (renameAnswer f) }

end Sys2Proof.Machine
end

