-- ==== Sys2Proof/Certificates/Slice0/Obligations.lean ====
section
/-! DEFINITION. The statements about the model, each a rule of spec/ or derived from rules; proved nowhere in this file. -/

open Sys2Proof Sys2Proof.Machine

/-! ### Encodings -/

/-- 30_encoding.md R64: the 4-bit op codes. -/
def Obligations.OpCodesDecodeAsTabled : Prop :=
  ∀ (idx : BitVec 8) (arg : Arg) (n : Nat) (data : List Byte),
    decode ⟨0x0#4, idx, arg, n, data⟩ = .instr (.crc7 data) ∧
    decode ⟨0x1#4, idx, arg, n, data⟩ = .instr (.writeCmd idx arg) ∧
    decode ⟨0x2#4, idx, arg, n, data⟩ = .instr .readR1 ∧
    decode ⟨0x3#4, idx, arg, n, data⟩ = .instr .readR4 ∧
    decode ⟨0x4#4, idx, arg, n, data⟩ = .instr .readR16 ∧
    decode ⟨0x5#4, idx, arg, n, data⟩ = .instr (.writeData data) ∧
    decode ⟨0x6#4, idx, arg, n, data⟩ = .instr (.readData n) ∧
    decode ⟨0x7#4, idx, arg, n, data⟩ = .instr .flush ∧
    decode ⟨0x8#4, idx, arg, n, data⟩ = .instr .isBusy ∧
    ∀ op : BitVec 4, 9 ≤ op.toNat → decode ⟨op, idx, arg, n, data⟩ = .unassigned op

/-- Decode and encode agree in both directions, on every request record and every operation: a request
decodes to `i` exactly when the part of it that its op code reads (R66, R67) is the encoding of `i`. -/
def Obligations.DecodeIsInverseOfEncode : Prop :=
  (∀ i : Instr, decode (encode i) = .instr i) ∧
  ∀ (r : Request) (i : Instr), decode r = .instr i ↔ encode i = r.readPart

/-- R60 to R62: the frame is six bytes sent byte 0 first, and the fields of its 48-bit view `F`. -/
def Obligations.FrameHasTheTabledLayout : Prop :=
  ∀ (idx : BitVec 8) (arg : Arg),
    let f := cmdFrame idx arg
    let F := frameBits f
    frameBytes f = [F.extractLsb' 40 8, F.extractLsb' 32 8, F.extractLsb' 24 8,
      F.extractLsb' 16 8, F.extractLsb' 8 8, F.extractLsb' 0 8] ∧
    F.extractLsb' 46 2 = 0b01#2 ∧
    F.extractLsb' 40 6 = idx.extractLsb' 0 6 ∧
    F.extractLsb' 32 8 = arg.extractLsb' 24 8 ∧
    F.extractLsb' 24 8 = arg.extractLsb' 16 8 ∧
    F.extractLsb' 16 8 = arg.extractLsb' 8 8 ∧
    F.extractLsb' 8 8 = arg.extractLsb' 0 8 ∧
    F.extractLsb' 1 7 = crc7Rem ((frameBytes f).take 5) ∧
    F.extractLsb' 0 1 = 1#1

/-- 41_command_framer.md R106: the command-frame property, for every index 0..63 and argument. -/
def Obligations.CommandFrameProperty : Prop :=
  ∀ (idx : BitVec 8) (arg : Arg), idx.toNat < 64 →
    ∃ b0 b1 b2 b3 b4 b5 : Byte,
      frameBytes (cmdFrame idx arg) = [b0, b1, b2, b3, b4, b5] ∧
      b0 = 0x40#8 ||| (idx &&& 0x3F#8) ∧
      b1 ++ b2 ++ b3 ++ b4 = arg ∧
      b5 = crc7Byte [b0, b1, b2, b3, b4] ∧
      b0.extractLsb' 6 2 = 0b01#2

/-- R107: the frame determines the masked index and the argument, and can be read back. -/
def Obligations.FrameDeterminesIndexAndArgument : Prop :=
  (∀ (idx : BitVec 8) (arg : Arg),
    (cmdFrame idx arg).f0.extractLsb' 0 6 = (idx &&& 0x3F#8).extractLsb' 0 6 ∧
    (cmdFrame idx arg).f1 ++ (cmdFrame idx arg).f2 ++ (cmdFrame idx arg).f3 ++
      (cmdFrame idx arg).f4 = arg) ∧
  ∀ (idx idx' : BitVec 8) (arg arg' : Arg),
    cmdFrame idx arg = cmdFrame idx' arg' ↔ idx &&& 0x3F#8 = idx' &&& 0x3F#8 ∧ arg = arg'

/-- R63, the wire encoding and its decoder agree: the frames the block can produce are exactly the
six-byte sequences with marker `01` and a right check byte, and decoding a produced frame gives its
index and argument back; any other byte sequence is rejected. -/
def Obligations.FrameDecoderInvertsFramer : Prop :=
  (∀ b0 b1 b2 b3 b4 b5 : Byte,
    (∃ (idx : BitVec 8) (arg : Arg),
      frameBytes (cmdFrame idx arg) = [b0, b1, b2, b3, b4, b5]) ↔
    b0.extractLsb' 6 2 = 0b01#2 ∧ b5 = crc7Byte [b0, b1, b2, b3, b4]) ∧
  (∀ (idx : BitVec 8) (arg : Arg),
    decodeFrame (frameBytes (cmdFrame idx arg)) = some (idx.extractLsb' 0 6, arg)) ∧
  ∀ (s : List Byte) (ix : BitVec 6) (arg : Arg), decodeFrame s = some (ix, arg) →
    s = frameBytes (cmdFrame (ix.setWidth 8) arg)

/-! ### The CRC-7 generator -/

/-- 40_crc7.md R84. -/
def Obligations.CheckByteIsRemainderAndStopBit : Prop :=
  (∀ s : List Byte,
    crc7Byte s = crc7Rem s ++ 1#1 ∧
    crc7Byte s = ((crc7Rem s).setWidth 8 <<< 1) ||| 1#8 ∧
    (crc7Byte s).toNat % 2 = 1 ∧ 1 ≤ (crc7Byte s).toNat ∧ (crc7Byte s).toNat ≤ 0xFF) ∧
  crc7Byte [0x40#8, 0x00#8, 0x00#8, 0x00#8, 0x00#8] = 0x95#8 ∧
  crc7Byte [0x48#8, 0x00#8, 0x00#8, 0x01#8, 0xAA#8] = 0x87#8

/-- R85: the byte-parallel equations and the table give what eight bit steps give, and the table's
entry `v` is the remainder of `[v]`. -/
def Obligations.ByteParallelFormsAreBitSerial : Prop :=
  (∀ (c : Crc) (d : Byte), stepByteParallel c d = stepBits c (byteBits d)) ∧
  (∀ (c : Crc) (d : Byte), stepByteTable c d = stepBits c (byteBits d)) ∧
  crcTable.length = 256 ∧
  ∀ v : Byte, crcTable[v.toNat]? = some (crc7Rem [v]).toNat

/-- R87. -/
def Obligations.CheckByteSelfCheck : Prop :=
  ∀ s : List Byte,
    stepBits (crc7Rem s) (remBits (crc7Rem s)) = 0x00#7 ∧
    stepBits (crc7Rem s) (byteBits (crc7Byte s)) = 0x09#7

/-- R88. -/
def Obligations.CrcIsLinearAndSkipsLeadingZeros : Prop :=
  (∀ a b : List Byte, a.length = b.length →
    crc7Rem (List.zipWith (· ^^^ ·) a b) = crc7Rem a ^^^ crc7Rem b) ∧
  (∀ s : List Byte, crc7Rem (0x00#8 :: s) = crc7Rem s) ∧
  ∀ n : Nat, crc7Rem (List.replicate n 0x00#8) = 0x00#7 ∧
    crc7Byte (List.replicate n 0x00#8) = 0x01#8

/-- A bit string as a polynomial over GF(2), the head the coefficient of the highest power. -/
noncomputable def bitsPoly (bits : List Bool) : Polynomial (ZMod 2) :=
  bits.foldl (fun p b => p * Polynomial.X + Polynomial.C (if b then 1 else 0)) 0

/-- The generator polynomial x^7 + x^3 + 1 (R80, R83). -/
noncomputable def crcGenerator : Polynomial (ZMod 2) :=
  Polynomial.X ^ 7 + Polynomial.X ^ 3 + 1

/-- R83, the algebraic reading: the remainder of M(x)·x^7 divided by x^7 + x^3 + 1 over GF(2). -/
def Obligations.CrcIsPolynomialRemainder : Prop :=
  ∀ s : List Byte,
    Polynomial.modByMonic (bitsPoly (s.flatMap byteBits) * Polynomial.X ^ 7) crcGenerator =
      bitsPoly (remBits (crc7Rem s))

/-! ### The response deserializer -/

/-- 42_response_deserializer.md R121, R122: after at most 16 bytes the accumulator holds the
big-endian value, whose sum form R122 gives. -/
def Obligations.AccumulatorHoldsBigEndianValue : Prop :=
  (∀ s : List Byte, s.length ≤ 16 →
    accBytes 0#128 s = BitVec.ofNat 128 (be s) ∧ (accBytes 0#128 s).toNat = be s) ∧
  ∀ s : List Byte, be s = ∑ i : Fin s.length, (s.get i).toNat * 2 ^ (8 * (s.length - 1 - i))

/-- R123: every byte can be read back from the value, and `be` is a bijection between n-byte
sequences and 8n-bit values. -/
def Obligations.BigEndianIsBijective : Prop :=
  (∀ (s : List Byte) (i : Fin s.length),
    s.get i = (BitVec.ofNat (8 * s.length) (be s)).extractLsb' (8 * (s.length - 1 - i)) 8) ∧
  (∀ s : List Byte, be s < 2 ^ (8 * s.length)) ∧
  (∀ s t : List Byte, s.length = t.length → be s = be t → s = t) ∧
  ∀ n v : Nat, v < 2 ^ (8 * n) → ∃ s : List Byte, s.length = n ∧ be s = v

/-! ### Scripts and link calls -/

/-- 20_memory.md R50, the table: the link calls of each operation and the widths they move. -/
def Obligations.ScriptsMoveTheTabledWidths : Prop :=
  ∀ (p : Params) (idx : BitVec 8) (arg : Arg) (data : List Byte) (n : Nat),
    script p (.crc7 data) = [] ∧
    (∃ f : List Byte, f.length = 6 ∧ script p (.writeCmd idx arg) = [.write f]) ∧
    script p .readR1 = [.transfer [0xFF#8]] ∧
    script p .readR4 = [.transfer [0xFF#8, 0xFF#8, 0xFF#8, 0xFF#8]] ∧
    script p .readR16 = [.transfer (List.replicate 16 0xFF#8)] ∧
    script p (.writeData data) = [.write data] ∧
    script p (.readData n) = [.transferInPlace (List.replicate n 0xFF#8)] ∧
    script p .flush = List.replicate p.flushCount (.transfer [0xFF#8]) ∧
    script p .isBusy = [.transfer [0xFF#8]] ∧
    Params.thisBlock.flushCount = 255

/-- 30_encoding.md R65, 42_response_deserializer.md R130: every outbound byte of a reading operation
is 0xFF; and 0xFF is the one inbound byte that means not busy. -/
def Obligations.ReadsSendOnlySentinels : Prop :=
  (∀ (p : Params) (n : Nat) (i : Instr),
    i = .readR1 ∨ i = .readR4 ∨ i = .readR16 ∨ i = .readData n ∨ i = .flush ∨ i = .isBusy →
    ∀ c ∈ script p i, ∀ b ∈ callOut c, b = 0xFF#8) ∧
  ∀ b : Byte, busyOf b = false ↔ b = 0xFF#8

/-- 20_memory.md R47: on ok a write returns nothing and a transfer exactly as many bytes as it sends,
byte i the i-th the card drives, whatever the card drives. -/
def Obligations.InboundHasTheLengthOfTheCall : Prop :=
  ∀ (callNo : Nat) (out driven : List Byte),
    callInbound callNo (.write out) driven = [] ∧
    (callInbound callNo (.transfer out) driven).length = out.length ∧
    (∀ i, i < out.length → i < driven.length →
      (callInbound callNo (.transfer out) driven)[i]? = driven[i]?) ∧
    (driven.length = out.length → callInbound callNo (.transfer out) driven = driven)

/-- R49: the two transfers are the same on the wire and in what they return, and only READ_DATA uses
the in-place form. -/
def Obligations.TransferFormsAreIndistinguishable : Prop :=
  (∀ (callNo : Nat) (out driven : List Byte),
    callOut (.transfer out) = callOut (.transferInPlace out) ∧
    callInbound callNo (.transfer out) driven = callInbound callNo (.transferInPlace out) driven) ∧
  ∀ (p : Params) (i : Instr) (out : List Byte), .transferInPlace out ∈ script p i →
    ∃ n, i = .readData n

/-- R48, at exec: a call that fails keeps no inbound byte and is the last one made; of its outbound
bytes some prefix reached the card, whatever the number in the link's answer (log 6), and every prefix,
from none to all, is what some number gives. -/
def Obligations.FailingCallSendsAnyPrefix : Prop :=
  ∀ (s : State) (i : Instr) (c : LinkCall) (e : LinkError) (as : List LinkAnswer),
    s.phase = .running → s.calls[s.k]? = some c →
    (∀ n, ∃ bytes t, bytes <+: callOut c ∧
      exec i { s with answers := .err e n :: as } = .next t ∧
      t.traffic = s.traffic ++ [{ call := c, reached := bytes }] ∧
      t.inb = s.inb ∧ t.acc = s.acc ∧ t.phase = .idle) ∧
    ∀ bytes, bytes <+: callOut c → ∃ n t,
      exec i { s with answers := .err e n :: as } = .next t ∧
      t.traffic = s.traffic ++ [{ call := c, reached := bytes }]

/-! ### The engine, one step at a time -/

/-- One step of the machine is `exec` of the decoded operation: at IDLE of the request on the port,
which is latched into `req` and leaves the port; while RUNNING of the request accepted. -/
def Obligations.StepRunsTheDecodedOperation : Prop :=
  (∀ (s : State) (r : Request) (rest : List Request) (i : Instr),
    Presented r rest s → decode r = .instr i →
    step s = exec i { s with req := r, requester := rest }) ∧
  ∀ (s : State) (i : Instr),
    s.phase = .running → s.resetLine = .released → decode s.req = .instr i → step s = exec i s

/-- 10_state.md R26: what happens to a presented request. (The frame buffer's initial value, which R26
does not list, is in `AcceptanceIsTheWholeChange`.) -/
def Obligations.PresentedRequestIsAcceptedOrRefused : Prop :=
  (∀ (s : State) (r : Request) (rest : List Request) (op : BitVec 4),
    Presented r rest s → decode r = .unassigned op → step s = .refused (.unassignedOp op)) ∧
  (∀ (s : State) (r : Request) (rest : List Request) (i : Instr),
    Presented r rest s → decode r = .instr i → i.WellFormed s.cfg →
    ∃ t, step s = .next t ∧ t.req = r ∧ t.calls = script s.cfg i ∧ t.k = 0 ∧ t.inb = [] ∧
      t.crc = 0x00#7 ∧ t.acc = 0#128 ∧ t.phase = .running) ∧
  ∀ s t : State, s.phase = .running → s.resetLine = .released → step s = .next t →
    t.requester = s.requester

/-- The frame of acceptance: `exec` of a well-formed operation at IDLE changes the operation-local
fields of R23 as R23 says and nothing else. The frame buffer of an operation other than WRITE_CMD is
the model's choice (log 11), as is acceptance being a step of its own (log 8). -/
def Obligations.AcceptanceIsTheWholeChange : Prop :=
  ∀ (s : State) (i : Instr), s.phase = .idle → i.WellFormed s.cfg →
    exec i s = .next { s with
      phase := .running
      calls := script s.cfg i
      k := 0
      inb := []
      crc := 0x00#7
      acc := 0#128
      frame := match i with
        | .writeCmd idx arg => cmdFrame idx arg
        | _ => ⟨0#8, 0#8, 0#8, 0#8, 0#8, 0#8⟩ }

/-- R28, a call that answers ok: its inbound bytes are kept, `k` moves on; a read response shifts them
into the accumulator (R121); nothing else changes in the block. That the accumulator stays as it was in
every other operation is the model's choice (log 13). -/
def Obligations.LinkCallOkAdvances : Prop :=
  ∀ (s : State) (i : Instr) (c : LinkCall) (driven : List Byte),
    s.phase = .running → s.calls[s.k]? = some c → s.nextAnswer = .ok driven →
    exec i s = .next { s with
      inb := s.inb ++ [callInbound s.traffic.length c driven]
      k := s.k + 1
      acc := if isReadResponse i then accBytes s.acc (callInbound s.traffic.length c driven)
             else s.acc
      traffic := s.traffic ++ [sentWhole c]
      answers := s.answers.tail }

/-- 60_exceptions.md R171: the link's error, propagated unchanged in a LINK_ERR completion by every
operation that makes a call; the block is IDLE, and the failing call is the last one made. -/
def Obligations.LinkErrorEndsTheOperation : Prop :=
  ∀ (s : State) (i : Instr) (c : LinkCall) (e : LinkError) (reached : Nat),
    s.phase = .running → s.calls[s.k]? = some c → s.nextAnswer = .err e reached →
    exec i s = .next { s with
      phase := .idle
      completions := s.completions ++ [.linkErr e]
      traffic := s.traffic ++ [sentPart c reached]
      answers := s.answers.tail }

/-- 70_reset_and_hazards.md R197: a call that is never answered leaves the block no further step; only
reset ends it. That the model shows this as a fault is its own choice (log 7). -/
def Obligations.UnansweredCallBlocksUntilReset : Prop :=
  (∀ (s : State) (i : Instr) (c : LinkCall),
    s.phase = .running → s.calls[s.k]? = some c → s.nextAnswer = .silent →
    exec i s = .fault .linkNeverAnswers) ∧
  ∀ (s : State) (inFlight : Option Nat), s.resetLine = .asserted inFlight →
    ∃ t, step s = .next t ∧ t.phase = .idle

/-- R86 finish, at exec: the check byte of the data, zero-extended; `busy` 0, no rdata, and nothing
else changes but the CRC register. That the register holds the remainder after the finish is the
model's choice (log 12). -/
def Obligations.Crc7FinishGivesTheCheckByte : Prop :=
  ∀ (s : State) (data : List Byte),
    s.phase = .running → s.calls[s.k]? = none → s.crc = 0x00#7 →
    exec (.crc7 data) s = .next { s with
      phase := .idle
      crc := crc7Rem data
      completions := s.completions ++ [.ok ((crc7Byte data).setWidth 128) false []] }

/-- R104, R141, R149 finish, at exec: status OK and no result, whatever came in; nothing else changes. -/
def Obligations.WritesAndFlushFinishWithoutResult : Prop :=
  ∀ (s : State) (i : Instr) (idx : BitVec 8) (arg : Arg) (data : List Byte),
    i = .writeCmd idx arg ∨ i = .writeData data ∨ i = .flush →
    s.phase = .running → s.calls[s.k]? = none →
    exec i s = .next { s with
      phase := .idle
      completions := s.completions ++ [.ok 0#128 false []] }

/-- R124, R126, R128 finish, at exec: after its one exchange a read response holds as many bytes as
its name says, and their big-endian value is the completion's value; nothing else changes. The
premise is the engine's invariant, which every step keeps. -/
def Obligations.ResponsesFinishWithBigEndianValue : Prop :=
  ∀ (s : State) (i : Instr) (n : Nat),
    (i = .readR1 ∧ n = 1) ∨ (i = .readR4 ∧ n = 4) ∨ (i = .readR16 ∧ n = 16) →
    s.phase = .running → RunningInv i s → s.k = s.calls.length →
    ∃ bytes : List Byte, s.inb = [bytes] ∧ bytes.length = n ∧
      exec i s = .next { s with
        phase := .idle
        completions := s.completions ++ [.ok (BitVec.ofNat 128 (be bytes)) false []] }

/-- R145 finish, at exec: the result buffer is the n inbound bytes, in order. -/
def Obligations.ReadDataFinishesWithTheInboundBytes : Prop :=
  ∀ (s : State) (n : Nat),
    s.phase = .running → RunningInv (.readData n) s → s.k = s.calls.length →
    ∃ bytes : List Byte, s.inb = [bytes] ∧ bytes.length = n ∧
      exec (.readData n) s = .next { s with
        phase := .idle
        completions := s.completions ++ [.ok 0#128 false bytes] }

/-- R153 finish, at exec: busy unless the sampled byte is exactly 0xFF. -/
def Obligations.IsBusyFinishesWithTheBusyBit : Prop :=
  ∀ s : State,
    s.phase = .running → RunningInv .isBusy s → s.k = s.calls.length →
    ∃ b : Byte, s.inb = [[b]] ∧
      exec .isBusy s = .next { s with
        phase := .idle
        completions := s.completions ++ [.ok 0#128 (decide (b ≠ 0xFF#8)) []] }

/-- What one step of one operation leaves unchanged, over all nine: the accepted request, the port,
the parameters and the reset line always; the script and the frame buffer while RUNNING; the link and its
traffic unless a call is left to make (R31); the CRC register but in CRC7 and the accumulator but in a
read response, which are the model's choice (log 12, log 13). -/
def Obligations.ExecFrame : Prop :=
  ∀ (s t : State) (i : Instr), exec i s = .next t →
    t.req = s.req ∧ t.requester = s.requester ∧ t.cfg = s.cfg ∧ t.resetLine = s.resetLine ∧
    (s.phase = .running → t.calls = s.calls ∧ t.frame = s.frame) ∧
    (s.phase = .running → (∀ data, i ≠ .crc7 data) → t.crc = s.crc) ∧
    (s.phase = .running → s.calls[s.k]? ≠ none → t.crc = s.crc) ∧
    (s.phase = .running → isReadResponse i = false → t.acc = s.acc) ∧
    (s.phase = .running → s.calls[s.k]? = none →
      t.acc = s.acc ∧ t.inb = s.inb ∧ t.k = s.k ∧ t.traffic = s.traffic ∧ t.answers = s.answers) ∧
    (s.phase = .idle →
      t.completions = s.completions ∧ t.traffic = s.traffic ∧ t.answers = s.answers)

/-- R178, R31, R28: a step makes at most one link call and presents at most one completion, and it
presents one only on the way to IDLE; what was presented and sent before stays. -/
def Obligations.StepAddsAtMostOneCallAndOneCompletion : Prop :=
  ∀ s t : State, step s = .next t →
    t.cfg = s.cfg ∧
    (t.traffic = s.traffic ∨ ∃ c n, s.calls[s.k]? = some c ∧ t.traffic = s.traffic ++ [sentPart c n]) ∧
    (t.completions = s.completions ∨
      (s.phase = .running ∧ t.phase = .idle ∧ ∃ c, t.completions = s.completions ++ [c])) ∧
    (t.answers = s.answers ∨ t.answers = s.answers.tail) ∧
    (t.requester = s.requester ∨
      (s.phase = .idle ∧ t.phase = .running ∧ s.requester = t.req :: t.requester))

/-- 60_exceptions.md R173: an op code 0x9..0xF is refused, with no link call and no completion (there
is no next state to hold one). -/
def Obligations.UnassignedOpCodesAreRefused : Prop :=
  ∀ (s : State) (r : Request) (rest : List Request),
    Presented r rest s → 9 ≤ r.op.toNat → step s = .refused (.unassignedOp r.op)

/-- R174: under `mask` an index 64..255 is accepted and masked; under `refuse` it is refused. -/
def Obligations.OversizeIndexFollowsThePolicy : Prop :=
  ∀ (s : State) (idx : BitVec 8) (arg : Arg), s.phase = .idle → 64 ≤ idx.toNat →
    (s.cfg.oversize = .mask →
      ∃ t, exec (.writeCmd idx arg) s = .next t ∧
        t.calls = [.write (frameBytes (cmdFrame (idx &&& 0x3F#8) arg))]) ∧
    (s.cfg.oversize = .refuse → exec (.writeCmd idx arg) s = .refused (.oversizeIndex idx))

/-- R175: a buffer longer than a bounded MAX_DATA_LEN is refused; unbounded, no request is refused for
its length. -/
def Obligations.OversizeBufferIsRefused : Prop :=
  ∀ (s : State) (data : List Byte) (n : Nat), s.phase = .idle →
    (∀ m, s.cfg.maxDataLen = some m → m < data.length →
      exec (.writeData data) s = .refused (.oversizeBuffer data.length) ∧
      exec (.crc7 data) s = .refused (.oversizeBuffer data.length)) ∧
    (∀ m, s.cfg.maxDataLen = some m → m < n →
      exec (.readData n) s = .refused (.oversizeBuffer n)) ∧
    (s.cfg.maxDataLen = none →
      (∃ t, exec (.writeData data) s = .next t) ∧ (∃ t, exec (.crc7 data) s = .next t) ∧
      ∃ t, exec (.readData n) s = .next t)

/-- R188: IDLE with no request presented, the block holds still. -/
def Obligations.IdleBlockHoldsStill : Prop :=
  ∀ s : State, s.phase = .idle → s.resetLine = .released → s.requester = [] → step s = .next s

/-! ### Whole operations, from the request on the port to the completion -/

/-- R86: CRC7 makes no link call, whatever the link would answer, and completes OK with the check byte;
the empty sequence and every all-zero sequence give 0x01. The number of steps is the model's choice
(log 8). -/
def Obligations.Crc7Operation : Prop :=
  (∀ (s : State) (r : Request) (rest : List Request),
    Presented r rest s → r.op = 0x0#4 → (∀ m, s.cfg.maxDataLen = some m → r.data.length ≤ m) →
    EndsIn 2 s (.ok ((crc7Byte r.data).setWidth 128) false []) [] s.answers rest) ∧
  (∀ (s : State) (r : Request) (rest : List Request) (m : Nat),
    Presented r rest s → r.op = 0x0#4 → s.cfg.maxDataLen = some m → m < r.data.length →
    step s = .refused (.oversizeBuffer r.data.length)) ∧
  crc7Byte [] = 0x01#8 ∧ (∀ n : Nat, crc7Byte (List.replicate n 0x00#8) = 0x01#8) ∧
  crc7Byte [0x40#8, 0x00#8, 0x00#8, 0x00#8, 0x00#8] = 0x95#8

/-- R104, R105: WRITE_CMD makes one write of the six frame bytes and nothing else. The number of steps
is the model's choice (log 8). -/
def Obligations.WriteCmdOperation : Prop :=
  crc7Byte [0x40#8, 0x00#8, 0x00#8, 0x00#8, 0x00#8] = 0x95#8 ∧
  ∀ (s : State) (r : Request) (rest : List Request) (h : List Byte),
    Presented r rest s → r.op = 0x1#4 →
    h = [0x40#8 ||| (r.idx &&& 0x3F#8), r.arg.extractLsb' 24 8, r.arg.extractLsb' 16 8,
      r.arg.extractLsb' 8 8, r.arg.extractLsb' 0 8] →
    (s.cfg.oversize = .mask ∨ r.idx.toNat < 64 →
      (∀ driven as, s.answers = .ok driven :: as →
        EndsIn 3 s (.ok 0#128 false []) [sentWhole (.write (h ++ [crc7Byte h]))] as rest) ∧
      (∀ e n as, s.answers = .err e n :: as →
        EndsIn 2 s (.linkErr e) [sentPart (.write (h ++ [crc7Byte h])) n] as rest)) ∧
    (s.cfg.oversize = .refuse → 64 ≤ r.idx.toNat → step s = .refused (.oversizeIndex r.idx))

/-- R124: READ_R1 sends one sentinel and returns the byte the card drives, as it is. The number
of steps is the model's choice (log 8). -/
def Obligations.ReadR1Operation : Prop :=
  ∀ (s : State) (r : Request) (rest : List Request), Presented r rest s → r.op = 0x2#4 →
    (∀ b0 as, s.answers = .ok [b0] :: as →
      EndsIn 3 s (.ok (b0.setWidth 128) false []) [sentWhole (.transfer [0xFF#8])] as rest) ∧
    ∀ e n as, s.answers = .err e n :: as →
      EndsIn 2 s (.linkErr e) [sentPart (.transfer [0xFF#8]) n] as rest

/-- R126: READ_R4 sends four sentinels and returns the four bytes big-endian, unsigned. The
number of steps is the model's choice (log 8). -/
def Obligations.ReadR4Operation : Prop :=
  ∀ (s : State) (r : Request) (rest : List Request), Presented r rest s → r.op = 0x3#4 →
    (∀ (b0 b1 b2 b3 : Byte) as, s.answers = .ok [b0, b1, b2, b3] :: as →
      EndsIn 3 s (.ok ((b0 ++ b1 ++ b2 ++ b3).setWidth 128) false [])
        [sentWhole (.transfer [0xFF#8, 0xFF#8, 0xFF#8, 0xFF#8])] as rest) ∧
    ∀ e n as, s.answers = .err e n :: as →
      EndsIn 2 s (.linkErr e) [sentPart (.transfer [0xFF#8, 0xFF#8, 0xFF#8, 0xFF#8]) n] as rest

/-- R128: READ_R16 sends sixteen sentinels and returns the sixteen bytes big-endian: the first lands in
bits 127:120, the last in bits 7:0. The number of steps is the model's choice (log 8). -/
def Obligations.ReadR16Operation : Prop :=
  ∀ (s : State) (r : Request) (rest : List Request), Presented r rest s → r.op = 0x4#4 →
    (∀ (bytes : List Byte) as, bytes.length = 16 → s.answers = .ok bytes :: as →
      ∃ v : Value,
        EndsIn 3 s (.ok v false []) [sentWhole (.transfer (List.replicate 16 0xFF#8))] as rest ∧
        v.toNat = be bytes ∧
        ∀ i : Fin bytes.length, v.extractLsb' (8 * (15 - i)) 8 = bytes.get i) ∧
    ∀ e n as, s.answers = .err e n :: as →
      EndsIn 2 s (.linkErr e) [sentPart (.transfer (List.replicate 16 0xFF#8)) n] as rest

/-- R141 to R143: WRITE_DATA makes one write of the buffer, verbatim, also of the empty buffer. The
number of steps is the model's choice (log 8). -/
def Obligations.WriteDataOperation : Prop :=
  ∀ (s : State) (r : Request) (rest : List Request), Presented r rest s → r.op = 0x5#4 →
    (∀ m, s.cfg.maxDataLen = some m → r.data.length ≤ m) →
    (∀ driven as, s.answers = .ok driven :: as →
      EndsIn 3 s (.ok 0#128 false []) [sentWhole (.write r.data)] as rest) ∧
    ∀ e n as, s.answers = .err e n :: as →
      EndsIn 2 s (.linkErr e) [sentPart (.write r.data) n] as rest

/-- R143 to R145: READ_DATA makes one in-place transfer of n sentinels, also of none, and its result is
the n bytes the card drives. The number of steps is the model's choice (log 8). -/
def Obligations.ReadDataOperation : Prop :=
  ∀ (s : State) (r : Request) (rest : List Request), Presented r rest s → r.op = 0x6#4 →
    (∀ m, s.cfg.maxDataLen = some m → r.n ≤ m) →
    (∀ bytes as, bytes.length = r.n → s.answers = .ok bytes :: as →
      EndsIn 3 s (.ok 0#128 false bytes)
        [sentWhole (.transferInPlace (List.replicate r.n 0xFF#8))] as rest) ∧
    ∀ e n as, s.answers = .err e n :: as →
      EndsIn 2 s (.linkErr e)
        [sentPart (.transferInPlace (List.replicate r.n 0xFF#8)) n] as rest

/-- R146 to R149: FLUSH makes FLUSH_COUNT single-byte exchanges (255 in this block), whatever the card
drives; if exchange number j fails, it is the last one made. The number of steps is the model's choice
(log 8). -/
def Obligations.FlushOperation : Prop :=
  (∀ (s : State) (r : Request) (rest : List Request), Presented r rest s → r.op = 0x7#4 →
    (∀ (driven : List (List Byte)) as, driven.length = s.cfg.flushCount →
      s.answers = driven.map LinkAnswerOf.ok ++ as →
      EndsIn (s.cfg.flushCount + 2) s (.ok 0#128 false [])
        (List.replicate s.cfg.flushCount (sentWhole (.transfer [0xFF#8]))) as rest) ∧
    (∀ (j : Nat) (driven : List (List Byte)) e n as, 1 ≤ j → j ≤ s.cfg.flushCount →
      driven.length = j - 1 → s.answers = driven.map LinkAnswerOf.ok ++ .err e n :: as →
      EndsIn (j + 1) s (.linkErr e)
        (List.replicate (j - 1) (sentWhole (.transfer [0xFF#8])) ++
          [sentPart (.transfer [0xFF#8]) n]) as rest)) ∧
  Params.thisBlock.flushCount = 255

/-- R150 to R153: IS_BUSY samples one byte, once; busy unless it is 0xFF; a link error is an error and
no busy bit. The number of steps is the model's choice (log 8). -/
def Obligations.IsBusyOperation : Prop :=
  ∀ (s : State) (r : Request) (rest : List Request), Presented r rest s → r.op = 0x8#4 →
    (∀ b0 as, s.answers = .ok [b0] :: as →
      EndsIn 3 s (.ok 0#128 (if b0 = 0xFF#8 then false else true) [])
        [sentWhole (.transfer [0xFF#8])] as rest) ∧
    ∀ e n as, s.answers = .err e n :: as →
      EndsIn 2 s (.linkErr e) [sentPart (.transfer [0xFF#8]) n] as rest

/-- 10_state.md R30: the engine, step by step, does what the functional form says, for every request
and every behaviour of the link: refused with an unassigned op code; otherwise the same completion, the
same link traffic, the same answers used; where the functional form diverges, the engine blocks (shown
as a fault, log 7). The bounds on the number of steps are the model's choice (log 8). -/
def Obligations.EngineRefinesFunctionalForm : Prop :=
  (∀ (s : State) (r : Request) (rest : List Request) (op : BitVec 4),
    Presented r rest s → decode r = .unassigned op → step s = .refused (.unassignedOp op)) ∧
  ∀ (s : State) (r : Request) (rest : List Request) (i : Instr),
    Presented r rest s → decode r = .instr i → i.WellFormed s.cfg →
    match completionOf i (runScript Config.linkAnswer s.traffic.length (script s.cfg i) s.answers).ending with
    | some c =>
      ∃ n, n ≤ (script s.cfg i).length + 2 ∧
        EndsIn n s c (runScript Config.linkAnswer s.traffic.length (script s.cfg i) s.answers).traffic
          (runScript Config.linkAnswer s.traffic.length (script s.cfg i) s.answers).answers rest
    | none =>
      ∃ n, n ≤ (script s.cfg i).length + 1 ∧ run n s = .fault .linkNeverAnswers

/-! ### Whole-machine rules -/

/-- The engine's invariant holds right after reset (the reset values that R190 leaves unspecified are
the model's, log 10). -/
def Obligations.ResetSatisfiesInvariant : Prop :=
  State.reset.phase = .idle ∧ State.reset.completions = [] ∧ Inv State.reset

/-- R23, R26, R28: every step keeps the invariant of the operation-local fields, from every state that
meets it. Its clauses on the frame buffer of an operation other than WRITE_CMD (log 11), on the CRC
register of WRITE_CMD (log 12) and on the accumulator outside the read responses (log 13) are the
model's choice. -/
def Obligations.EveryStepKeepsInvariant : Prop :=
  ∀ s t : State, Inv s → step s = .next t → Inv t

/-- R21: nothing one operation computes is observable in a later operation. Two IDLE blocks that differ
in operation-local fields alone behave the same, seen from outside, for any number of steps. -/
def Obligations.OperationLocalFieldsAreUnobservable : Prop :=
  ∀ (n : Nat) (s t : State), s.phase = .idle → s.observe = t.observe →
    mapOut State.observe (run n s) =
      mapOut State.observe (run n t)

/-- 70_reset_and_hazards.md R191: a reset while RUNNING abandons the operation with no completion; of
its script at most the call in flight has sent a part of its bytes; link, card and requester stay.
That the answer of the call in flight is lost (log 17) and that an IDLE block with no request steps to
itself (log 3) are the model's choice. -/
def Obligations.ResetAbandonsTheOperation : Prop :=
  ∀ (s : State) (inFlight : Option Nat),
    s.phase = .running → s.resetLine = .asserted inFlight →
    ∃ t, step s = .next t ∧ t.phase = .idle ∧ t.resetLine = .released ∧
      t.completions = s.completions ∧ t.requester = s.requester ∧ t.cfg = s.cfg ∧
      (inFlight = none ∨ s.calls[s.k]? = none → t.traffic = s.traffic ∧ t.answers = s.answers) ∧
      (∀ n c, inFlight = some n → s.calls[s.k]? = some c →
        t.traffic = s.traffic ++ [sentPart c n] ∧ t.answers = s.answers.tail) ∧
      (s.requester = [] → ∀ m, run m t = .next t)

/-- R192: after a reset the block behaves as any IDLE block with the same surroundings, whatever
operation the reset abandoned. -/
def Obligations.ResetIsUnobservableLater : Prop :=
  ∀ (n : Nat) (s u : State) (inFlight : Option Nat),
    s.resetLine = .asserted inFlight → u.phase = .idle →
    (∀ t, step s = .next t → t.observe = u.observe) →
    mapOut State.observe (run (n + 1) s) =
      mapOut State.observe (run n u)

/-- R12, R171: the block never inspects an error value. Renaming the link's errors by any function
renames them in the completions and changes nothing else, so the choice of the error type (log 14)
does not matter. -/
def Obligations.LinkErrorIsNeverInspected : Prop :=
  ∀ (f : LinkError → LinkError) (s : State), s.answers ≠ [] →
    step (s.rename f) = mapOut (State.rename f) (step s)

/-- R200: if the link answers every call (none of the listed answers is silent, and there are enough),
an accepted operation ends within its number of link calls and two more steps, a bound that is the
model's choice (log 8). -/
def Obligations.OperationsEndIfTheLinkAnswers : Prop :=
  ∀ (s : State) (r : Request) (rest : List Request) (i : Instr),
    Presented r rest s → decode r = .instr i → i.WellFormed s.cfg →
    (script s.cfg i).length ≤ s.answers.length →
    (∀ a ∈ s.answers.take (script s.cfg i).length, a ≠ .silent) →
    ∃ n c events as, n ≤ (script s.cfg i).length + 2 ∧ EndsIn n s c events as rest

/-- 20_memory.md R54: with every call answered ok, a sequence of requests, whatever their ignored fields
hold, puts on the link exactly
the concatenation, in order, of the outbound bytes of each operation's calls, and each operation has
its completion. -/
def Obligations.OutboundStreamIsInAcceptanceOrder : Prop :=
  ∀ (reqs : List Request) (ops : List Instr) (s : State) (rest : List Request)
    (driven : List (List Byte)) (as : List LinkAnswer),
    s.phase = .idle → s.resetLine = .released → s.requester = reqs ++ rest →
    reqs.map decode = ops.map Decoded.instr →
    (∀ i ∈ ops, i.WellFormed s.cfg) →
    driven.length = (ops.flatMap (script s.cfg)).length →
    s.answers = driven.map LinkAnswerOf.ok ++ as →
    ∃ n t, run n s = .next t ∧ t.phase = .idle ∧
      t.requester = rest ∧ t.answers = as ∧
      t.completions.length = s.completions.length + ops.length ∧
      t.wire = s.wire ++ (ops.flatMap (script s.cfg)).flatMap callOut

/-- R12, R30, R171: the type of the link's errors is an argument. For every type `ε` and every reading
`f` of this machine's error values in it, the engine ends as the functional form over `ε` says, with the
error that form returns; where that form diverges the engine blocks (shown as a fault, log 7). -/
def Obligations.EngineRefinesFunctionalFormForEveryErrorType : Prop :=
  ∀ (ε : Type) (f : LinkError → ε) (s : State) (r : Request) (rest : List Request) (i : Instr)
    (R : ScriptRun ε),
    Presented r rest s → decode r = .instr i → i.WellFormed s.cfg →
    R = runScript (fun m => renameAnswer f (Config.linkAnswer m)) s.traffic.length (script s.cfg i)
      (s.answers.map (renameAnswer f)) →
    (∀ c, completionOf i R.ending = some c → ∃ n c' as,
      renameCompletion f c' = c ∧ as.map (renameAnswer f) = R.answers ∧
      EndsIn n s c' R.traffic as rest) ∧
    (completionOf i R.ending = none → ∃ n, run n s = .fault .linkNeverAnswers)

/-- R21, R23, R26, as a step lemma: no step tells apart two states that look the same from outside, and
it leaves them looking the same from outside. -/
def Obligations.EveryStepKeepsStatesIndistinguishable : Prop :=
  ∀ s t : State, SameFromOutside s t →
    mapOut State.observe (step s) = mapOut State.observe (step t) ∧
    ∀ s' t', step s = .next s' → step t = .next t' → SameFromOutside s' t'
end

