-- ==== Sys2Proof/Laws/State.lean ====
section
/-! SUPPORT. The projections of every record update of State: one lemma per field per update, so that no proof unfolds an update. -/

namespace Sys2Proof.Machine

section
variable (calls : List LinkCall) (frame : CmdFrame) (s : State)

@[simp] theorem State.load_phase : (s.load calls frame).phase = .running := rfl
@[simp] theorem State.load_req : (s.load calls frame).req = s.req := rfl
@[simp] theorem State.load_calls : (s.load calls frame).calls = calls := rfl
@[simp] theorem State.load_k : (s.load calls frame).k = 0 := rfl
@[simp] theorem State.load_inb : (s.load calls frame).inb = [] := rfl
@[simp] theorem State.load_crc : (s.load calls frame).crc = Config.crcInit := rfl
@[simp] theorem State.load_frame : (s.load calls frame).frame = frame := rfl
@[simp] theorem State.load_acc : (s.load calls frame).acc = 0#128 := rfl
@[simp] theorem State.load_completions : (s.load calls frame).completions = s.completions := rfl
@[simp] theorem State.load_cfg : (s.load calls frame).cfg = s.cfg := rfl
@[simp] theorem State.load_requester : (s.load calls frame).requester = s.requester := rfl
@[simp] theorem State.load_answers : (s.load calls frame).answers = s.answers := rfl
@[simp] theorem State.load_traffic : (s.load calls frame).traffic = s.traffic := rfl
@[simp] theorem State.load_resetLine : (s.load calls frame).resetLine = s.resetLine := rfl

end

section
variable (c : Completion) (s : State)

@[simp] theorem State.complete_phase : (s.complete c).phase = .idle := rfl
@[simp] theorem State.complete_req : (s.complete c).req = s.req := rfl
@[simp] theorem State.complete_calls : (s.complete c).calls = s.calls := rfl
@[simp] theorem State.complete_k : (s.complete c).k = s.k := rfl
@[simp] theorem State.complete_inb : (s.complete c).inb = s.inb := rfl
@[simp] theorem State.complete_crc : (s.complete c).crc = s.crc := rfl
@[simp] theorem State.complete_frame : (s.complete c).frame = s.frame := rfl
@[simp] theorem State.complete_acc : (s.complete c).acc = s.acc := rfl
@[simp] theorem State.complete_completions : (s.complete c).completions = s.completions ++ [c] := rfl
@[simp] theorem State.complete_cfg : (s.complete c).cfg = s.cfg := rfl
@[simp] theorem State.complete_requester : (s.complete c).requester = s.requester := rfl
@[simp] theorem State.complete_answers : (s.complete c).answers = s.answers := rfl
@[simp] theorem State.complete_traffic : (s.complete c).traffic = s.traffic := rfl
@[simp] theorem State.complete_resetLine : (s.complete c).resetLine = s.resetLine := rfl

end

section
variable (c : LinkCall) (n : Nat) (s : State)

@[simp] theorem State.sendCall_phase : (s.sendCall c n).phase = s.phase := rfl
@[simp] theorem State.sendCall_req : (s.sendCall c n).req = s.req := rfl
@[simp] theorem State.sendCall_calls : (s.sendCall c n).calls = s.calls := rfl
@[simp] theorem State.sendCall_k : (s.sendCall c n).k = s.k := rfl
@[simp] theorem State.sendCall_inb : (s.sendCall c n).inb = s.inb := rfl
@[simp] theorem State.sendCall_crc : (s.sendCall c n).crc = s.crc := rfl
@[simp] theorem State.sendCall_frame : (s.sendCall c n).frame = s.frame := rfl
@[simp] theorem State.sendCall_acc : (s.sendCall c n).acc = s.acc := rfl
@[simp] theorem State.sendCall_completions : (s.sendCall c n).completions = s.completions := rfl
@[simp] theorem State.sendCall_cfg : (s.sendCall c n).cfg = s.cfg := rfl
@[simp] theorem State.sendCall_requester : (s.sendCall c n).requester = s.requester := rfl
@[simp] theorem State.sendCall_answers : (s.sendCall c n).answers = s.answers.tail := rfl
@[simp] theorem State.sendCall_traffic : (s.sendCall c n).traffic = s.traffic ++ [{ call := c, reached := (callOut c).take n }] := rfl
@[simp] theorem State.sendCall_resetLine : (s.sendCall c n).resetLine = s.resetLine := rfl

end

section
variable (c : LinkCall) (d : List Byte) (ab : Value → List Byte → Value) (s : State)

@[simp] theorem State.receive_phase : (s.receive c d ab).phase = s.phase := rfl
@[simp] theorem State.receive_req : (s.receive c d ab).req = s.req := rfl
@[simp] theorem State.receive_calls : (s.receive c d ab).calls = s.calls := rfl
@[simp] theorem State.receive_k : (s.receive c d ab).k = s.k + 1 := rfl
@[simp] theorem State.receive_inb : (s.receive c d ab).inb = s.inb ++ [callInbound s.traffic.length c d] := rfl
@[simp] theorem State.receive_crc : (s.receive c d ab).crc = s.crc := rfl
@[simp] theorem State.receive_frame : (s.receive c d ab).frame = s.frame := rfl
@[simp] theorem State.receive_acc : (s.receive c d ab).acc = ab s.acc (callInbound s.traffic.length c d) := rfl
@[simp] theorem State.receive_completions : (s.receive c d ab).completions = s.completions := rfl
@[simp] theorem State.receive_cfg : (s.receive c d ab).cfg = s.cfg := rfl
@[simp] theorem State.receive_requester : (s.receive c d ab).requester = s.requester := rfl
@[simp] theorem State.receive_answers : (s.receive c d ab).answers = s.answers.tail := rfl
@[simp] theorem State.receive_traffic : (s.receive c d ab).traffic = s.traffic ++ [sentWhole c] := by
  simp [State.receive, State.sendCall, sentWhole]
@[simp] theorem State.receive_resetLine : (s.receive c d ab).resetLine = s.resetLine := rfl

end

/-- R29 with status OK is R29. -/
@[simp] theorem State.completeOk_eq (v : Value) (b : Bool) (rd : List Byte) (s : State) :
    s.completeOk v b rd = s.complete (.ok v b rd) := rfl

/-- R171: the shared error operation is a LINK_ERR completion. -/
@[simp] theorem State.raiseLinkError_eq (e : LinkError) (s : State) :
    s.raiseLinkError e = s.complete (.linkErr e) := rfl

/-- A whole call is the part of it of its own length. -/
theorem sentPart_length (c : LinkCall) : sentPart c (callOut c).length = sentWhole c := by
  simp [sentPart, sentWhole]

/-- What a reset leaves of what can be seen (R191). -/
theorem State.blockReset_observe (inFlight : Option Nat) (s : State) :
    (s.blockReset inFlight).observe =
      { (s.abandonCall inFlight).observe with phase := .idle, resetLine := .released } := rfl

@[simp] theorem State.blockReset_phase (inFlight : Option Nat) (s : State) :
    (s.blockReset inFlight).phase = .idle := rfl

@[simp] theorem State.blockReset_resetLine (inFlight : Option Nat) (s : State) :
    (s.blockReset inFlight).resetLine = .released := rfl

end Sys2Proof.Machine
end

