-- ==== Sys2Proof/Laws/Engine.lean ====
section
/-! SUPPORT. What the engine's operations can do, said once: every meaning is `State.operate`, and `State.operate` is acceptance, one link call, or the finish. -/

namespace Sys2Proof.Machine

/-- What each operation does with inbound bytes (R121). -/
def absorbOf (i : Instr) : Value → List Byte → Value :=
  if isReadResponse i then accBytes else ignoreInbound

/-- The finish of each operation on the engine's registers. -/
def finishStep : Instr → State → State
  | .crc7 data => finishCrc7 data
  | .writeCmd _ _ => State.completeOk 0#128 false []
  | .readR1 => finishResponse
  | .readR4 => finishResponse
  | .readR16 => finishResponse
  | .writeData _ => State.completeOk 0#128 false []
  | .readData n => finishReadData n
  | .flush => State.completeOk 0#128 false []
  | .isBusy => finishIsBusy

/-- Every meaning is the engine with its own finish. -/
theorem exec_eq_operate (i : Instr) (s : State) :
    exec i s = s.operate i (absorbOf i) (finishStep i) := by
  cases i <;> rfl

/-- A well-formed operation meets no refusal (R176). -/
theorem refusalOf_eq_none {p : Params} {i : Instr} (h : i.WellFormed p) :
    refusalOf p i = none := by
  simp only [refusalOf, show i.check p = none from h]

/-- Acceptance (R26). -/
theorem operate_accept {i : Instr} {ab : Value → List Byte → Value} {fin : State → State} {s : State}
    (hp : s.phase = .idle) (hw : i.WellFormed s.cfg) :
    s.operate i ab fin = .next (s.load (script s.cfg i) (frameBuffer i)) := by
  simp only [State.operate, hp, refusalOf_eq_none hw]

/-- A refused request (R174, R175). -/
theorem operate_refuse {i : Instr} {ab : Value → List Byte → Value} {fin : State → State} {s : State}
    {r : Refusal} (hp : s.phase = .idle) (hr : refusalOf s.cfg i = some r) :
    s.operate i ab fin = .refused r := by
  simp only [State.operate, hp, hr]

/-- A link call (R28). -/
theorem operate_call {i : Instr} {ab : Value → List Byte → Value} {fin : State → State} {s : State}
    {c : LinkCall} (hp : s.phase = .running) (hc : s.calls[s.k]? = some c) :
    s.operate i ab fin = s.linkCall c ab := by
  simp only [State.operate, hp, hc]

/-- The finish (R29). -/
theorem operate_finish {i : Instr} {ab : Value → List Byte → Value} {fin : State → State} {s : State}
    (hp : s.phase = .running) (hc : s.calls[s.k]? = none) :
    s.operate i ab fin = .next (fin s) := by
  simp only [State.operate, hp, hc]

/-- Everything one link call can do (R28). -/
theorem linkCall_cases (c : LinkCall) (ab : Value → List Byte → Value) (s : State) :
    (∃ d, s.nextAnswer = .ok d ∧ s.linkCall c ab = .next (s.receive c d ab)) ∨
    (∃ e n, s.nextAnswer = .err e n ∧
      s.linkCall c ab = .next ((s.sendCall c n).complete (.linkErr e))) ∨
    (s.nextAnswer = .silent ∧ s.linkCall c ab = .fault .linkNeverAnswers) := by
  unfold State.linkCall
  split <;> rename_i h <;> simp [h]

/-- A finish presents one completion and touches nothing else but the CRC register, which only CRC7
uses. -/
theorem finishStep_eq (i : Instr) (s : State) :
    ∃ c crc, finishStep i s = ({ s with crc := crc } : State).complete c ∧
      ((∀ data, i ≠ .crc7 data) → crc = s.crc) := by
  cases i with
  | crc7 data => exact ⟨_, _, rfl, fun h => absurd rfl (h data)⟩
  | _ => exact ⟨_, s.crc, rfl, fun _ => rfl⟩

/-- Everything `exec` can do when it answers a next state: accept, receive, end in the link's error, or
finish. -/
theorem exec_next_cases {i : Instr} {s t : State} (h : exec i s = .next t) :
    (s.phase = .idle ∧ refusalOf s.cfg i = none ∧
      t = s.load (script s.cfg i) (frameBuffer i)) ∨
    (∃ c d, s.phase = .running ∧ s.calls[s.k]? = some c ∧ s.nextAnswer = .ok d ∧
      t = s.receive c d (absorbOf i)) ∨
    (∃ c e n, s.phase = .running ∧ s.calls[s.k]? = some c ∧ s.nextAnswer = .err e n ∧
      t = (s.sendCall c n).complete (.linkErr e)) ∨
    (s.phase = .running ∧ s.calls[s.k]? = none ∧ t = finishStep i s) := by
  rw [exec_eq_operate] at h
  unfold State.operate at h
  split at h
  · rename_i hp
    split at h
    · cases h
    · rename_i hr
      cases h
      exact .inl ⟨hp, hr, rfl⟩
  · rename_i hp
    split at h
    · rename_i c hc
      obtain ⟨d, ha, he⟩ | ⟨e, n, ha, he⟩ | ⟨ha, he⟩ := linkCall_cases c (absorbOf i) s
      · exact .inr (.inl ⟨c, d, hp, hc, ha, by rw [he] at h; cases h; rfl⟩)
      · exact .inr (.inr (.inl ⟨c, e, n, hp, hc, ha, by rw [he] at h; cases h; rfl⟩))
      · rw [he] at h; cases h
    · rename_i hc
      cases h
      exact .inr (.inr (.inr ⟨hp, hc, rfl⟩))

end Sys2Proof.Machine
end

