-- ==== Sys2Proof/Laws/Operands.lean ====
section
/-! SUPPORT. Inbound bytes, the READ_DATA buffer, the accumulator and the CRC register over sequences. -/

namespace Sys2Proof.Machine

/-- Inbound bytes have the call's length (R47). -/
@[simp] theorem inboundFill_length (callNo len : Nat) (driven : List Byte) :
    (inboundFill callNo len driven).length = len := by
  induction len generalizing driven with
  | zero => rfl
  | succ len ih => cases driven <;> simp [inboundFill, ih]

/-- A link that drives the right number of bytes is read as it is (R47). -/
theorem inboundFill_exact (callNo : Nat) (driven : List Byte) :
    inboundFill callNo driven.length driven = driven := by
  induction driven with
  | nil => rfl
  | cons b rest ih => simp [inboundFill, ih]

/-- Inbound bytes have the call's length (R47). -/
@[simp] theorem callInbound_length (callNo : Nat) (c : LinkCall) (driven : List Byte) :
    (callInbound callNo c driven).length = callInLen c := by
  simp [callInbound]

@[simp] theorem answerFrom_cons {ε : Type} (more : Nat → LinkAnswerOf ε) (callNo : Nat)
    (a : LinkAnswerOf ε) (as : List (LinkAnswerOf ε)) : answerFrom more callNo (a :: as) = a := rfl
@[simp] theorem answerFrom_nil {ε : Type} (more : Nat → LinkAnswerOf ε) (callNo : Nat) :
    answerFrom more callNo [] = more callNo := rfl
@[simp] theorem answerAt_cons (callNo : Nat) (a : LinkAnswer) (as : List LinkAnswer) :
    answerAt callNo (a :: as) = a := rfl
@[simp] theorem answerAt_nil (callNo : Nat) : answerAt callNo [] = Config.linkAnswer callNo := rfl

/-- Renaming the errors of a link renames those of each answer (R12). -/
theorem renameAnswer_answerFrom {ε ε' : Type} (f : ε → ε') (more : Nat → LinkAnswerOf ε) (callNo : Nat)
    (as : List (LinkAnswerOf ε)) :
    answerFrom (fun m => renameAnswer f (more m)) callNo (as.map (renameAnswer f)) =
      renameAnswer f (answerFrom more callNo as) := by
  cases as <;> rfl

/-- Writing a whole buffer from offset `pre.length` replaces what was there. -/
theorem memWrite_replaces (pre buf s : List Byte) (h : buf.length = s.length) :
    memWrite (pre ++ buf) pre.length s = pre ++ s := by
  induction s generalizing pre buf with
  | nil => simp [memWrite, List.length_eq_zero_iff.mp (by simpa using h)]
  | cons b rest ih =>
    cases buf with
    | nil => simp at h
    | cons x buf =>
      have := ih (pre ++ [b]) buf (by simpa using h)
      simpa [memWrite, List.append_assoc] using this

/-- The READ_DATA buffer is the inbound bytes (R145). -/
theorem readBuffer_eq (n : Nat) (s : List Byte) (h : s.length = n) : readBuffer n s = s := by
  have := memWrite_replaces [] (sentinels n) s (by simp [sentinels, h])
  simpa [readBuffer] using this

@[simp] theorem accBytes_nil (acc : Value) : accBytes acc [] = acc := rfl

/-- The accumulator takes sequences one after the other (R121). -/
theorem accBytes_append (acc : Value) (s t : List Byte) :
    accBytes acc (s ++ t) = accBytes (accBytes acc s) t := by
  simp [accBytes, List.foldl_append]

@[simp] theorem stepBytes_nil (crc : Crc) : stepBytes crc [] = crc := rfl

/-- The CRC register takes sequences one after the other (R83). -/
theorem stepBytes_append (crc : Crc) (s t : List Byte) :
    stepBytes crc (s ++ t) = stepBytes (stepBytes crc s) t := by
  simp [stepBytes, List.foldl_append]

/-- The CRC register takes bits one after the other (R82). -/
theorem stepBits_append (crc : Crc) (s t : List Bool) :
    stepBits crc (s ++ t) = stepBits (stepBits crc s) t := by
  simp [stepBits, List.foldl_append]

end Sys2Proof.Machine
end

