-- ==== Sys2Proof/Laws/PerInstr.lean ====
section
/-! SUPPORT. Per-operation laws, one lemma per constructor of Instr. -/

namespace Sys2Proof.Laws.WellFormedHere

/-- With this block's parameters (00_scope.md R12: policy mask, MAX_DATA_LEN unbounded) every operation
is well formed, so no request with an assigned op code is refused (60_exceptions.md R174 to R176). -/
def Statement (i : Instr) : Prop := i.WellFormed Params.thisBlock

theorem crc7 (data : List Byte) : Statement (.crc7 data) := rfl
theorem writeCmd (idx : BitVec 8) (arg : Arg) : Statement (.writeCmd idx arg) := rfl
theorem readR1 : Statement .readR1 := rfl
theorem readR4 : Statement .readR4 := rfl
theorem readR16 : Statement .readR16 := rfl
theorem writeData (data : List Byte) : Statement (.writeData data) := rfl
theorem readData (n : Nat) : Statement (.readData n) := rfl
theorem flush : Statement .flush := rfl
theorem isBusy : Statement .isBusy := rfl

end Sys2Proof.Laws.WellFormedHere
end

