-- ==== Sys2Proof/Laws/Step.lean ====
section
/-! SUPPORT. What one step can do, and running several. -/

namespace Sys2Proof.Machine

/-- The request at IDLE is latched from the port (R26). -/
theorem fetch_presented {r : Request} {rest : List Request} {s : State} (h : Presented r rest s) :
    s.fetch = some (r, { s with req := r, requester := rest }) := by
  simp only [State.fetch, h.idle, h.requester]

/-- While RUNNING the request is the accepted one, and the port is not looked at (R196). -/
theorem fetch_running {s : State} (h : s.phase = .running) : s.fetch = some (s.req, s) := by
  simp only [State.fetch, h]

/-- Everything `step` can do when it answers a next state. -/
theorem step_next_cases {s t : State} (h : step s = .next t) :
    (∃ p, s.resetLine = .asserted p ∧ t = s.blockReset p) ∨
    (s.resetLine = .released ∧ s.phase = .idle ∧ s.requester = [] ∧ t = s) ∨
    (∃ r rest i, Presented r rest s ∧ decode r = .instr i ∧
      exec i { s with req := r, requester := rest } = .next t) ∨
    (∃ i, s.resetLine = .released ∧ s.phase = .running ∧ decode s.req = .instr i ∧
      exec i s = .next t) := by
  unfold step at h
  split at h
  · rename_i p hr
    cases h
    exact .inl ⟨p, hr, rfl⟩
  · rename_i hr
    cases hp : s.phase with
    | running =>
      rw [fetch_running hp] at h
      dsimp only at h
      split at h
      · rename_i i hd
        exact .inr (.inr (.inr ⟨i, hr, rfl, hd, h⟩))
      · cases h
    | idle =>
      cases hq : s.requester with
      | nil =>
        simp only [State.fetch, hp, hq] at h
        cases h
        exact .inr (.inl ⟨hr, rfl, rfl, rfl⟩)
      | cons r rest =>
        have hP : Presented r rest s := ⟨hp, hr, hq⟩
        rw [fetch_presented hP] at h
        dsimp only at h
        split at h
        · rename_i i hd
          exact .inr (.inr (.inl ⟨r, rest, i, hP, hd, by simpa [hp] using h⟩))
        · cases h

/-- `run` is the host's run of the machine. -/
theorem run_eq_hostRun (n : Nat) (s : State) : run n s = Host.Core.run Sys2Proof.core n s := by
  induction n generalizing s with
  | zero => rfl
  | succ n ih =>
    have e : Sys2Proof.core.step s = step s := rfl
    simp only [run, Host.Core.run, e]
    cases step s with
    | next t => exact ih t
    | fault r => rfl
    | refused r => rfl

/-- A step, then the rest of a run. -/
theorem run_succ {n : Nat} {s t : State} (h : step s = .next t) : run (n + 1) s = run n t := by
  simp only [run, h]

/-- Running `a + b` steps is running `a`, then `b`. -/
theorem run_add {a b : Nat} {s t : State} (h : run a s = .next t) : run (a + b) s = run b t := by
  induction a generalizing s with
  | zero => cases h; simp
  | succ a ih =>
    rw [show a + 1 + b = (a + b) + 1 by omega]
    cases hs : step s with
    | next u =>
      rw [run_succ hs] at h ⊢
      exact ih h
    | fault r => simp [run, hs] at h
    | refused r => simp [run, hs] at h

end Sys2Proof.Machine
end

