-- ==== Sys2Proof/Tests/Slice0.lean ====
section
/-! SUPPORT. Tests whose expected results are written out from spec/ (95_test_vectors.md and the rules named), and a witness for the hypotheses of every obligation. -/

namespace Sys2Proof.Machine.Tests

/-! ### Decoding: the words of 30_encoding.md R64 -/

theorem test_decode_crc7 : decodeTableWord 8 0b0000 = some (.crc7 []) := by decide
theorem test_decode_writeCmd : decodeTableWord 8 0b0001 = some (.writeCmd 0#8 0#32) := by decide
theorem test_decode_readR1 : decodeTableWord 8 0b0010 = some .readR1 := by decide
theorem test_decode_readR4 : decodeTableWord 8 0b0011 = some .readR4 := by decide
theorem test_decode_readR16 : decodeTableWord 8 0b0100 = some .readR16 := by decide
theorem test_decode_writeData : decodeTableWord 8 0b0101 = some (.writeData []) := by decide
theorem test_decode_readData : decodeTableWord 8 0b0110 = some (.readData 0) := by decide
theorem test_decode_flush : decodeTableWord 8 0b0111 = some .flush := by decide
theorem test_decode_isBusy : decodeTableWord 8 0b1000 = some .isBusy := by decide
/-- D-REF-1, D-REF-2 and every code between. -/
theorem test_decode_unassigned : ∀ w < 16, 9 ≤ w → decodeTableWord 8 w = none := by decide
/-- The operands of P2's first request and of P3's last. -/
theorem test_decode_operands :
    decode ⟨0x1#4, 0x08#8, 0x000001AA#32, 7, [0x11#8]⟩ = .instr (.writeCmd 0x08#8 0x000001AA#32) ∧
    decode ⟨0x6#4, 0x08#8, 0x000001AA#32, 2, [0x11#8]⟩ = .instr (.readData 2) := by decide

/-! ### WellFormed: each check refuses an ill-formed operation (D-REF-3, D-REF-4) -/

def strict : Params := { flushCount := 255, maxDataLen := some 1, oversize := .refuse }

theorem test_wf_index : (Instr.writeCmd 64#8 0#32).check strict = some (.oversizeIndex 64#8) := by decide
theorem test_wf_crc7 : (Instr.crc7 [0#8, 0#8]).check strict = some (.oversizeBuffer 2) := by decide
theorem test_wf_writeData : (Instr.writeData [0#8, 0#8]).check strict = some (.oversizeBuffer 2) := by decide
theorem test_wf_readData : (Instr.readData 2).check strict = some (.oversizeBuffer 2) := by decide
theorem test_wf_boundary : (Instr.writeCmd 63#8 0#32).WellFormed strict ∧
    (Instr.readData 1).WellFormed strict := by decide

/-! ### The generator, the framer, the deserializer -/

/-- The bit-serial trace of 0x40 (95_test_vectors.md section 2). -/
theorem test_crc_trace : (byteBits 0x40#8).foldl (fun l b => l ++ [stepBit (l.getLast?.getD 0#7) b]) [] =
    [0#7, 0b0001001#7, 0b0010010#7, 0b0100100#7, 0b1001000#7, 0b0011001#7, 0b0110010#7, 0b1100100#7] := by
  decide +kernel
/-- D-CRC-13: the source's printed sequence gives 0x11, not 0x87 (90_conflicts.md C2). -/
theorem test_crc_51 : crc7Byte [0x51#8, 0x00#8, 0x00#8, 0x01#8, 0xAA#8] = 0x11#8 := by decide +kernel
/-- D-CRC-15. -/
theorem test_crc_register_image : crc7Byte [0x00#8, 0x26#8, 0x00#8, 0x32#8, 0x5F#8, 0x59#8, 0x83#8,
    0xC8#8, 0xAD#8, 0xDB#8, 0xCF#8, 0xFF#8, 0xD2#8, 0x40#8, 0x40#8] = 0xA5#8 := by decide +kernel
/-- D-CMD-11: the byte order of the argument. -/
theorem test_frame_17 : frameBytes (cmdFrame 17#8 0x12345678#32) =
    [0x51#8, 0x12#8, 0x34#8, 0x56#8, 0x78#8, 0x5D#8] := by decide +kernel
/-- D-CMD-22, D-CMD-24: the index is masked before the marker is put in. -/
theorem test_frame_masked :
    frameBytes (cmdFrame 0x80#8 0#32) = [0x40#8, 0x00#8, 0x00#8, 0x00#8, 0x00#8, 0x95#8] ∧
    frameBytes (cmdFrame 0xFF#8 0x1AA#32) = [0x7F#8, 0x00#8, 0x00#8, 0x01#8, 0xAA#8, 0x77#8] := by
  decide +kernel
/-- S3 read back; a wrong check byte is no frame (R63). -/
theorem test_decode_frame :
    decodeFrame [0x48#8, 0x00#8, 0x00#8, 0x01#8, 0xAA#8, 0x87#8] = some (8#6, 0x000001AA#32) ∧
    decodeFrame [0x48#8, 0x00#8, 0x00#8, 0x01#8, 0xAA#8, 0x85#8] = none ∧
    decodeFrame [0xC8#8, 0x00#8, 0x00#8, 0x01#8, 0xAA#8, 0x87#8] = none := by decide +kernel
/-- S7 and D-R4-4. -/
theorem test_be : be [0x00#8, 0x00#8, 0x01#8, 0x00#8] = 256 ∧
    be [0x80#8, 0x00#8, 0x00#8, 0x00#8] = 2147483648 := by decide
/-- D-R16-5: the first byte in bits 127:120. -/
theorem test_acc : accBytes 0#128 (0x80#8 :: List.replicate 15 0x00#8) = BitVec.ofNat 128 (2 ^ 127) := by
  decide +kernel
/-- R177. -/
theorem test_status : statusCode (ε := Nat) (.ok 0#128 false []) = 0#1 ∧ statusCode (.linkErr 5) = 1#1 := by decide

/-! ### One step on small states -/

/-- IDLE, one request on the port. -/
def presenting (r : Request) (answers : List LinkAnswer) : State :=
  { State.reset with requester := [r], answers := answers }

/-- Operation `i` RUNNING, the calls of `inb` done. -/
def during (i : Instr) (inb : List (List Byte)) (answers : List LinkAnswer) : State :=
  { State.reset with
    phase := .running
    req := encode i
    calls := script Params.thisBlock i
    k := inb.length
    inb := inb
    frame := frameBuffer i
    acc := if isReadResponse i then accBytes 0#128 inb.flatten else 0#128
    answers := answers }

def lastCompletion (o : Host.Outcome State Fault Refusal) : Option Completion :=
  match o with
  | .next t => t.completions.getLast?
  | _ => none

def lastEvent (o : Host.Outcome State Fault Refusal) : Option LinkEvent :=
  match o with
  | .next t => t.traffic.getLast?
  | _ => none

/- `E1` of 95_test_vectors.md, an arbitrary error value. -/
variable (e1 : LinkError)

def nextPhase (o : Host.Outcome State Fault Refusal) : Option Phase :=
  match o with
  | .next t => some t.phase
  | _ => none

/-- A program comes to run: the word placed is accepted by the very next step. -/
theorem test_fetch_word : ∀ w < 9, nextPhase (step (State.reset.withFetchWord 8 w)) = some .running := by
  decide +kernel
/-- P5 (1). -/
theorem test_crc7_finish : lastCompletion (step (during (.crc7 [0x48#8, 0x00#8, 0x00#8, 0x01#8, 0xAA#8]) [] [])) =
    some (.ok 0x87#128 false []) := by decide +kernel
/-- D-ERR-1, three bytes of the frame gone out. -/
theorem test_writeCmd_error :
    lastCompletion (step (during (.writeCmd 0#8 0#32) [] [.err e1 3])) = some (.linkErr e1) ∧
    lastEvent (step (during (.writeCmd 0#8 0#32) [] [.err e1 3])) =
      some ⟨.write [0x40#8, 0x00#8, 0x00#8, 0x00#8, 0x00#8, 0x95#8], [0x40#8, 0x00#8, 0x00#8]⟩ := by
  have h : frameBytes (cmdFrame 0#8 0#32) = [0x40#8, 0x00#8, 0x00#8, 0x00#8, 0x00#8, 0x95#8] := by
    decide +kernel
  refine ⟨rfl, ?_⟩
  show some (LinkEvent.mk (.write (frameBytes (cmdFrame 0#8 0#32)))
    ((frameBytes (cmdFrame 0#8 0#32)).take 3)) = _
  rw [h]
  rfl
/-- D-R1-3: 0xFF is a value, not "no response". -/
theorem test_readR1_finish : lastCompletion (step (during .readR1 [[0xFF#8]] [])) =
    some (.ok 0xFF#128 false []) := by decide +kernel
/-- D-R4-3. -/
theorem test_readR4_finish : lastCompletion (step (during .readR4 [[0x12#8, 0x34#8, 0x56#8, 0x78#8]] [])) =
    some (.ok 0x12345678#128 false []) := by decide +kernel
/-- D-R16-2. -/
theorem test_readR16_finish : lastCompletion (step (during .readR16 [[0x00#8, 0x01#8, 0x02#8, 0x03#8, 0x04#8,
    0x05#8, 0x06#8, 0x07#8, 0x08#8, 0x09#8, 0x0A#8, 0x0B#8, 0x0C#8, 0x0D#8, 0x0E#8, 0x0F#8]] [])) =
    some (.ok 0x000102030405060708090A0B0C0D0E0F#128 false []) := by decide +kernel
/-- D-WD-1. -/
theorem test_writeData_call : lastEvent (step (during (.writeData [0xFE#8, 0x12#8, 0x34#8]) [] [.ok []])) =
    some ⟨.write [0xFE#8, 0x12#8, 0x34#8], [0xFE#8, 0x12#8, 0x34#8]⟩ := by decide +kernel
/-- D-RD-1. -/
theorem test_readData_finish : lastCompletion (step (during (.readData 4) [[0xFE#8, 0x01#8, 0x02#8, 0x03#8]] [])) =
    some (.ok 0#128 false [0xFE#8, 0x01#8, 0x02#8, 0x03#8]) := by decide +kernel
/-- D-ERR-4: the third exchange fails. -/
theorem test_flush_error : lastCompletion (step (during .flush [[0xFF#8], [0xFF#8]] [.err e1 0])) =
    some (.linkErr e1) := rfl
/-- D-BZ-1, D-BZ-2, D-BZ-5. -/
theorem test_isBusy_finish :
    lastCompletion (step (during .isBusy [[0xFF#8]] [])) = some (.ok 0#128 false []) ∧
    lastCompletion (step (during .isBusy [[0xFE#8]] [])) = some (.ok 0#128 true []) ∧
    lastCompletion (step (during .isBusy [[0x00#8]] [])) = some (.ok 0#128 true []) := by decide +kernel
/-- R197: no answer, no further step. -/
theorem test_silent : step (during .readR1 [] [.silent]) = .fault .linkNeverAnswers := by rfl

/-! ### Witnesses: the hypotheses of every obligation are met -/

theorem during_inv (i : Instr) (inb : List (List Byte)) (answers : List LinkAnswer)
    (hk : inb.length ≤ (script Params.thisBlock i).length)
    (hl : inb.map List.length = ((script Params.thisBlock i).take inb.length).map callInLen)
    (hw : i.WellFormed Params.thisBlock) : RunningInv i (during i inb answers) :=
  ⟨hw, rfl, rfl, hk, hl, rfl, rfl, rfl⟩

theorem presenting_presented (r : Request) (answers : List LinkAnswer) :
    Presented r [] (presenting r answers) := ⟨rfl, rfl, rfl⟩

theorem witness_OpCodesDecodeAsTabled : 9 ≤ (0x9#4 : BitVec 4).toNat ∧ 9 ≤ (0xF#4 : BitVec 4).toNat := by decide
theorem witness_CommandFrameProperty : (63#8 : BitVec 8).toNat < 64 := by decide
theorem witness_FrameDecoderInvertsFramer :
    decodeFrame [0x40#8, 0x00#8, 0x00#8, 0x00#8, 0x00#8, 0x95#8] = some (0#6, 0#32) := by decide +kernel
theorem witness_CrcIsLinear : ([0x40#8, 0x00#8] : List Byte).length = ([0x48#8, 0xAA#8] : List Byte).length := rfl
theorem witness_AccumulatorHoldsBigEndianValue : (List.replicate 16 0xFF#8).length ≤ 16 := by decide
theorem witness_BigEndianIsBijective :
    ([0x01#8] : List Byte).length = ([0x01#8] : List Byte).length ∧ be [0x01#8] = be [0x01#8] ∧
    255 < 2 ^ (8 * 1) := by decide
theorem witness_ReadsSendOnlySentinels :
    LinkCall.transfer (sentinels 1) ∈ script Params.thisBlock .readR1 ∧
    LinkCall.transfer (sentinels 4) ∈ script Params.thisBlock .readR4 ∧
    LinkCall.transfer (sentinels 16) ∈ script Params.thisBlock .readR16 ∧
    LinkCall.transferInPlace (sentinels 1) ∈ script Params.thisBlock (.readData 1) ∧
    LinkCall.transfer (sentinels 1) ∈ script Params.thisBlock .flush ∧
    LinkCall.transfer (sentinels 1) ∈ script Params.thisBlock .isBusy ∧
    0xFF#8 ∈ callOut (.transfer (sentinels 1)) := by decide
theorem witness_InboundHasTheLengthOfTheCall :
    0 < ([0xFF#8] : List Byte).length ∧ 0 < ([0x05#8] : List Byte).length ∧
    ([0x05#8] : List Byte).length = ([0xFF#8] : List Byte).length := by decide
theorem witness_TransferFormsAreIndistinguishable :
    LinkCall.transferInPlace [] ∈ script Params.thisBlock (.readData 0) := by decide
/-- None, a part and all of a frame. -/
theorem witness_FailingCallSendsAnyPrefix :
    (during (.writeCmd 0#8 0#32) [] []).phase = .running ∧
    (during (.writeCmd 0#8 0#32) [] []).calls[(during (.writeCmd 0#8 0#32) [] []).k]? =
      some (.write [0x40#8, 0x00#8, 0x00#8, 0x00#8, 0x00#8, 0x95#8]) ∧
    ∀ p ∈ ([[], [0x40#8], [0x40#8, 0x00#8, 0x00#8, 0x00#8, 0x00#8, 0x95#8]] : List (List Byte)),
      p <+: callOut (.write [0x40#8, 0x00#8, 0x00#8, 0x00#8, 0x00#8, 0x95#8]) :=
  ⟨rfl, by decide +kernel, by decide⟩

theorem witness_StepRunsTheDecodedOperation :
    (Presented (encode .readR1) [] (presenting (encode .readR1) []) ∧ decode (encode .readR1) = .instr .readR1) ∧
    (during .readR1 [] []).phase = .running ∧ (during .readR1 [] []).resetLine = .released ∧
    decode (during .readR1 [] []).req = .instr .readR1 :=
  ⟨⟨presenting_presented _ _, rfl⟩, rfl, rfl, rfl⟩
theorem witness_PresentedRequest_refused :
    Presented (Request.ofOp 0x9#4) [] (presenting (Request.ofOp 0x9#4) []) ∧
    decode (Request.ofOp 0x9#4) = .unassigned 0x9#4 := ⟨presenting_presented _ _, rfl⟩
theorem witness_PresentedRequest_accepted :
    Presented (encode .flush) [] (presenting (encode .flush) []) ∧ decode (encode .flush) = .instr .flush ∧
    Instr.flush.WellFormed (presenting (encode .flush) []).cfg := ⟨presenting_presented _ _, rfl, rfl⟩
theorem witness_PresentedRequest_waits :
    (during .isBusy [] [.ok [0xFF#8]]).phase = .running ∧ (during .isBusy [] [.ok [0xFF#8]]).resetLine = .released ∧
    ∃ t, step (during .isBusy [] [.ok [0xFF#8]]) = .next t := ⟨rfl, rfl, _, rfl⟩
theorem witness_AcceptanceIsTheWholeChange :
    State.reset.phase = .idle ∧ (Instr.writeCmd 255#8 0#32).WellFormed State.reset.cfg := ⟨rfl, rfl⟩
theorem witness_LinkCallOkAdvances :
    (during .readR4 [] [.ok [0x01#8]]).phase = .running ∧
    (during .readR4 [] [.ok [0x01#8]]).calls[(during .readR4 [] [.ok [0x01#8]]).k]? = some (.transfer (sentinels 4)) ∧
    (during .readR4 [] [.ok [0x01#8]]).nextAnswer = .ok [0x01#8] := ⟨rfl, rfl, rfl⟩
theorem witness_LinkErrorEndsTheOperation :
    (during .isBusy [] [.err e1 1]).phase = .running ∧
    (during .isBusy [] [.err e1 1]).calls[(during .isBusy [] [.err e1 1]).k]? = some (.transfer (sentinels 1)) ∧
    (during .isBusy [] [.err e1 1]).nextAnswer = .err e1 1 := ⟨rfl, rfl, rfl⟩
theorem witness_UnansweredCallBlocksUntilReset :
    ((during .readR1 [] [.silent]).phase = .running ∧
      (during .readR1 [] [.silent]).calls[(during .readR1 [] [.silent]).k]? = some (.transfer (sentinels 1)) ∧
      (during .readR1 [] [.silent]).nextAnswer = .silent) ∧
    ({ during .readR1 [] [.silent] with resetLine := .asserted (some 0) } : State).resetLine = .asserted (some 0) :=
  ⟨⟨rfl, rfl, rfl⟩, rfl⟩
theorem witness_Crc7Finish :
    (during (.crc7 [0x01#8]) [] []).phase = .running ∧
    (during (.crc7 [0x01#8]) [] []).calls[(during (.crc7 [0x01#8]) [] []).k]? = none ∧
    (during (.crc7 [0x01#8]) [] []).crc = 0x00#7 := ⟨rfl, rfl, rfl⟩
theorem witness_WritesAndFlushFinish_writeCmd :
    (during (.writeCmd 1#8 2#32) [[]] []).phase = .running ∧
    (during (.writeCmd 1#8 2#32) [[]] []).calls[(during (.writeCmd 1#8 2#32) [[]] []).k]? = none := ⟨rfl, rfl⟩
theorem witness_WritesAndFlushFinish_writeData :
    (during (.writeData []) [[]] []).phase = .running ∧
    (during (.writeData []) [[]] []).calls[(during (.writeData []) [[]] []).k]? = none := ⟨rfl, rfl⟩
theorem witness_WritesAndFlushFinish_flush :
    (during .flush (List.replicate 255 [0x00#8]) []).phase = .running ∧
    (during .flush (List.replicate 255 [0x00#8]) []).calls[(during .flush (List.replicate 255 [0x00#8]) []).k]? = none :=
  ⟨rfl, by decide +kernel⟩
theorem witness_ResponsesFinish_readR1 : (during .readR1 [[0x01#8]] []).phase = .running ∧
    RunningInv .readR1 (during .readR1 [[0x01#8]] []) ∧
    (during .readR1 [[0x01#8]] []).k = (during .readR1 [[0x01#8]] []).calls.length :=
  ⟨rfl, during_inv _ _ _ (by decide) (by decide) rfl, rfl⟩
theorem witness_ResponsesFinish_readR4 : (during .readR4 [List.replicate 4 0x01#8] []).phase = .running ∧
    RunningInv .readR4 (during .readR4 [List.replicate 4 0x01#8] []) ∧
    (during .readR4 [List.replicate 4 0x01#8] []).k = (during .readR4 [List.replicate 4 0x01#8] []).calls.length :=
  ⟨rfl, during_inv _ _ _ (by decide) (by decide) rfl, rfl⟩
theorem witness_ResponsesFinish_readR16 : (during .readR16 [List.replicate 16 0x01#8] []).phase = .running ∧
    RunningInv .readR16 (during .readR16 [List.replicate 16 0x01#8] []) ∧
    (during .readR16 [List.replicate 16 0x01#8] []).k = (during .readR16 [List.replicate 16 0x01#8] []).calls.length :=
  ⟨rfl, during_inv _ _ _ (by decide) (by decide) rfl, rfl⟩
theorem witness_ReadDataFinishes : (during (.readData 0) [[]] []).phase = .running ∧
    RunningInv (.readData 0) (during (.readData 0) [[]] []) ∧
    (during (.readData 0) [[]] []).k = (during (.readData 0) [[]] []).calls.length :=
  ⟨rfl, during_inv _ _ _ (by decide) (by decide) rfl, rfl⟩
theorem witness_IsBusyFinishes : (during .isBusy [[0xFE#8]] []).phase = .running ∧
    RunningInv .isBusy (during .isBusy [[0xFE#8]] []) ∧
    (during .isBusy [[0xFE#8]] []).k = (during .isBusy [[0xFE#8]] []).calls.length :=
  ⟨rfl, during_inv _ _ _ (by decide) (by decide) rfl, rfl⟩
/-- IDLE; RUNNING with a call left; RUNNING with none left. -/
theorem witness_ExecFrame :
    (∃ t, exec .readR1 State.reset = .next t) ∧
    (∃ t, exec .readR1 (during .readR1 [] [.ok [0x01#8]]) = .next t) ∧
    (during .readR1 [] [.ok [0x01#8]]).calls[(during .readR1 [] [.ok [0x01#8]]).k]? ≠ none ∧
    ∃ t, exec .isBusy (during .isBusy [[0xFF#8]] []) = .next t :=
  ⟨⟨_, rfl⟩, ⟨_, rfl⟩, by decide, ⟨_, rfl⟩⟩
theorem witness_StepAddsAtMostOne : ∃ t, step (during .readR1 [] [.ok [0x01#8]]) = .next t := ⟨_, rfl⟩
theorem witness_UnassignedOpCodesAreRefused :
    Presented (Request.ofOp 0xF#4) [] (presenting (Request.ofOp 0xF#4) []) ∧
    9 ≤ (Request.ofOp 0xF#4).op.toNat := ⟨presenting_presented _ _, by decide⟩
theorem witness_OversizeIndex_mask :
    State.reset.phase = .idle ∧ 64 ≤ (64#8 : BitVec 8).toNat ∧ State.reset.cfg.oversize = .mask :=
  ⟨rfl, by decide, rfl⟩
theorem witness_OversizeIndex_refuse :
    ({ State.reset with cfg := strict } : State).phase = .idle ∧ 64 ≤ (255#8 : BitVec 8).toNat ∧
    ({ State.reset with cfg := strict } : State).cfg.oversize = .refuse := ⟨rfl, by decide, rfl⟩
theorem witness_OversizeBuffer_bounded :
    ({ State.reset with cfg := strict } : State).phase = .idle ∧
    ({ State.reset with cfg := strict } : State).cfg.maxDataLen = some 1 ∧
    1 < ([0x00#8, 0x00#8] : List Byte).length ∧ 1 < 2 := ⟨rfl, rfl, by decide, by decide⟩
theorem witness_OversizeBuffer_unbounded :
    State.reset.phase = .idle ∧ State.reset.cfg.maxDataLen = none := ⟨rfl, rfl⟩
theorem witness_IdleBlockHoldsStill :
    State.reset.phase = .idle ∧ State.reset.resetLine = .released ∧ State.reset.requester = [] := ⟨rfl, rfl, rfl⟩

theorem witness_Crc7Operation :
    Presented (encode (.crc7 [])) [] (presenting (encode (.crc7 [])) []) ∧ (encode (.crc7 [])).op = 0x0#4 ∧
    ∀ m, (presenting (encode (.crc7 [])) []).cfg.maxDataLen = some m → (encode (.crc7 [])).data.length ≤ m :=
  ⟨presenting_presented _ _, rfl, fun _ _ => Nat.zero_le _⟩
theorem witness_Crc7Operation_refused :
    Presented (encode (.crc7 [0x00#8, 0x00#8])) []
      { presenting (encode (.crc7 [0x00#8, 0x00#8])) [] with cfg := strict } ∧
    (encode (.crc7 [0x00#8, 0x00#8])).op = 0x0#4 ∧ strict.maxDataLen = some 1 ∧
    1 < (encode (.crc7 [0x00#8, 0x00#8])).data.length := ⟨⟨rfl, rfl, rfl⟩, rfl, rfl, by decide⟩
/-- Data of exactly the bounded MAX_DATA_LEN. -/
theorem witness_Crc7Operation_bound :
    Presented (encode (.crc7 [0x40#8])) [] { presenting (encode (.crc7 [0x40#8])) [] with cfg := strict } ∧
    (encode (.crc7 [0x40#8])).op = 0x0#4 ∧ strict.maxDataLen = some 1 ∧
    ∀ m, strict.maxDataLen = some m → (encode (.crc7 [0x40#8])).data.length ≤ m :=
  ⟨⟨rfl, rfl, rfl⟩, rfl, rfl, fun m h => by cases h; decide⟩
/-- Index 63 under policy refuse: the last that is accepted. -/
theorem witness_WriteCmdOperation_bound (a : LinkAnswer) (_ : a = .ok [] ∨ a = .err e1 0) :
    Presented (encode (.writeCmd 63#8 0#32)) []
      { presenting (encode (.writeCmd 63#8 0#32)) [a] with cfg := strict } ∧
    (encode (.writeCmd 63#8 0#32)).op = 0x1#4 ∧ strict.oversize = .refuse ∧
    (encode (.writeCmd 63#8 0#32)).idx.toNat < 64 ∧
    ({ presenting (encode (.writeCmd 63#8 0#32)) [a] with cfg := strict } : State).answers = a :: [] :=
  ⟨⟨rfl, rfl, rfl⟩, rfl, rfl, by decide, rfl⟩
/-- Index 63, the last not masked, and 255, masked; an ok and an error answer. -/
theorem witness_WriteCmdOperation :
    Presented (encode (.writeCmd 63#8 7#32)) [] (presenting (encode (.writeCmd 63#8 7#32)) [.ok []]) ∧
    (encode (.writeCmd 63#8 7#32)).op = 0x1#4 ∧ (encode (.writeCmd 63#8 7#32)).idx.toNat < 64 ∧
    (presenting (encode (.writeCmd 63#8 7#32)) [.ok []]).answers = .ok [] :: [] ∧
    (presenting (encode (.writeCmd 255#8 7#32)) [.err e1 6]).cfg.oversize = .mask ∧
    (presenting (encode (.writeCmd 255#8 7#32)) [.err e1 6]).answers = .err e1 6 :: [] :=
  ⟨presenting_presented _ _, rfl, by decide, rfl, rfl, rfl⟩
theorem witness_WriteCmdOperation_refused :
    Presented (encode (.writeCmd 64#8 0#32)) []
      { presenting (encode (.writeCmd 64#8 0#32)) [] with cfg := strict } ∧
    strict.oversize = .refuse ∧ 64 ≤ (encode (.writeCmd 64#8 0#32)).idx.toNat :=
  ⟨⟨rfl, rfl, rfl⟩, rfl, by decide⟩
theorem witness_ReadR1Operation (a : LinkAnswer) (_ : a = .ok [0xFF#8] ∨ a = .err e1 1) :
    Presented (encode .readR1) [] (presenting (encode .readR1) [a]) ∧ (encode .readR1).op = 0x2#4 ∧
    (presenting (encode .readR1) [a]).answers = a :: [] := ⟨presenting_presented _ _, rfl, rfl⟩
theorem witness_ReadR4Operation (a : LinkAnswer)
    (_ : a = .ok [0x80#8, 0x00#8, 0x00#8, 0x00#8] ∨ a = .err e1 0) :
    Presented (encode .readR4) [] (presenting (encode .readR4) [a]) ∧ (encode .readR4).op = 0x3#4 ∧
    (presenting (encode .readR4) [a]).answers = a :: [] := ⟨presenting_presented _ _, rfl, rfl⟩
theorem witness_ReadR16Operation (a : LinkAnswer) (_ : a = .ok (List.replicate 16 0xFF#8) ∨ a = .err e1 16) :
    Presented (encode .readR16) [] (presenting (encode .readR16) [a]) ∧ (encode .readR16).op = 0x4#4 ∧
    (presenting (encode .readR16) [a]).answers = a :: [] ∧ (List.replicate 16 0xFF#8).length = 16 :=
  ⟨presenting_presented _ _, rfl, rfl, rfl⟩
theorem witness_WriteDataOperation (a : LinkAnswer) (_ : a = .ok [] ∨ a = .err e1 0) :
    Presented (encode (.writeData [])) [] (presenting (encode (.writeData [])) [a]) ∧
    (encode (.writeData [])).op = 0x5#4 ∧
    (∀ m, (presenting (encode (.writeData [])) [a]).cfg.maxDataLen = some m → (encode (.writeData [])).data.length ≤ m) ∧
    (presenting (encode (.writeData [])) [a]).answers = a :: [] :=
  ⟨presenting_presented _ _, rfl, fun _ _ => Nat.zero_le _, rfl⟩
theorem witness_ReadDataOperation (a : LinkAnswer) (_ : a = .ok [] ∨ a = .err e1 0) :
    Presented (encode (.readData 0)) [] (presenting (encode (.readData 0)) [a]) ∧
    (encode (.readData 0)).op = 0x6#4 ∧
    (∀ m, (presenting (encode (.readData 0)) [a]).cfg.maxDataLen = some m → (encode (.readData 0)).n ≤ m) ∧
    ([] : List Byte).length = (encode (.readData 0)).n ∧
    (presenting (encode (.readData 0)) [a]).answers = a :: [] :=
  ⟨presenting_presented _ _, rfl, fun _ _ => Nat.zero_le _, rfl, rfl⟩
theorem witness_FlushOperation_ok :
    Presented (encode .flush) [] (presenting (encode .flush) ((List.replicate 255 [0x00#8]).map LinkAnswerOf.ok ++ [])) ∧
    (encode .flush).op = 0x7#4 ∧ (List.replicate 255 [0x00#8]).length = State.reset.cfg.flushCount :=
  ⟨presenting_presented _ _, rfl, List.length_replicate ..⟩
/-- The first and the last exchange failing. -/
theorem witness_FlushOperation_err (j : Nat) (_ : j = 1 ∨ j = 255) :
    Presented (encode .flush) []
      (presenting (encode .flush) ((List.replicate (j - 1) [0x00#8]).map LinkAnswerOf.ok ++ .err e1 1 :: [])) ∧
    1 ≤ j ∧ j ≤ State.reset.cfg.flushCount ∧ (List.replicate (j - 1) [0x00#8]).length = j - 1 :=
  ⟨presenting_presented _ _, by omega, by show j ≤ 255; omega, List.length_replicate ..⟩
theorem witness_IsBusyOperation (a : LinkAnswer) (_ : a = .ok [0xFF#8] ∨ a = .ok [0xFE#8] ∨ a = .err e1 1) :
    Presented (encode .isBusy) [] (presenting (encode .isBusy) [a]) ∧ (encode .isBusy).op = 0x8#4 ∧
    (presenting (encode .isBusy) [a]).answers = a :: [] := ⟨presenting_presented _ _, rfl, rfl⟩
theorem witness_EngineRefinesFunctionalForm_refused :
    Presented (Request.ofOp 0x9#4) [] (presenting (Request.ofOp 0x9#4) []) ∧
    decode (Request.ofOp 0x9#4) = .unassigned 0x9#4 := ⟨presenting_presented _ _, rfl⟩
/-- The functional form completes on one link and diverges on another. -/
theorem witness_EngineRefinesFunctionalForm :
    Presented (encode .isBusy) [] (presenting (encode .isBusy) [.ok [0xFF#8]]) ∧
    decode (encode .isBusy) = .instr .isBusy ∧ Instr.isBusy.WellFormed State.reset.cfg ∧
    completionOf .isBusy (runScript Config.linkAnswer 0 (script State.reset.cfg .isBusy) [.ok [0xFF#8]]).ending =
      some (.ok 0#128 false []) ∧
    completionOf .isBusy (runScript Config.linkAnswer 0 (script State.reset.cfg .isBusy) [.silent]).ending = none :=
  ⟨presenting_presented _ _, rfl, rfl, by decide, by decide⟩
theorem witness_EveryStepKeepsInvariant :
    Inv (during .readR1 [] [.ok [0x01#8]]) ∧ (during .readR1 [] [.ok [0x01#8]]).phase = .running ∧
    ∃ t, step (during .readR1 [] [.ok [0x01#8]]) = .next t :=
  ⟨fun _ => ⟨.readR1, rfl, during_inv _ _ _ (by decide) (by decide) rfl⟩, rfl, _, rfl⟩
/-- Two IDLE blocks that differ in the accumulator. -/
theorem witness_OperationLocalFieldsAreUnobservable :
    (presenting (encode .readR1) []).phase = .idle ∧
    (presenting (encode .readR1) []).observe = ({ presenting (encode .readR1) [] with acc := 5#128 } : State).observe ∧
    presenting (encode .readR1) [] ≠ ({ presenting (encode .readR1) [] with acc := 5#128 } : State) :=
  ⟨rfl, rfl, by decide⟩
/-- Mid-operation, with no call in flight and with one. -/
theorem witness_ResetAbandonsTheOperation (p : Option Nat) (_ : p = none ∨ p = some 3) :
    ({ during .readR4 [] [] with resetLine := .asserted p } : State).phase = .running ∧
    ({ during .readR4 [] [] with resetLine := .asserted p } : State).resetLine = .asserted p ∧
    ({ during .readR4 [] [] with resetLine := .asserted p } : State).calls[
      ({ during .readR4 [] [] with resetLine := .asserted p } : State).k]? = some (.transfer (sentinels 4)) ∧
    ({ during .readR4 [] [] with resetLine := .asserted p } : State).requester = [] := ⟨rfl, rfl, rfl, rfl⟩
theorem witness_ResetIsUnobservableLater :
    ({ during .readR4 [] [] with resetLine := .asserted none } : State).resetLine = .asserted none ∧
    State.reset.phase = .idle ∧
    ∀ t, step { during .readR4 [] [] with resetLine := .asserted none } = .next t → t.observe = State.reset.observe :=
  ⟨rfl, rfl, fun t h => by cases h; rfl⟩
theorem witness_LinkErrorIsNeverInspected : (during .readR1 [] [.err e1 0]).answers ≠ [] :=
  List.cons_ne_nil _ _
theorem witness_OperationsEndIfTheLinkAnswers :
    Presented (encode .readR1) [] (presenting (encode .readR1) [.ok [0x01#8]]) ∧
    decode (encode .readR1) = .instr .readR1 ∧ Instr.readR1.WellFormed State.reset.cfg ∧
    (script State.reset.cfg .readR1).length ≤ (presenting (encode .readR1) [.ok [0x01#8]]).answers.length ∧
    ∀ a ∈ (presenting (encode .readR1) [.ok [0x01#8]]).answers.take (script State.reset.cfg .readR1).length, a ≠ .silent :=
  ⟨presenting_presented _ _, rfl, rfl, by decide, by decide⟩
/-- P1's two requests, the second with ignored fields that are not zero. -/
theorem witness_OutboundStreamIsInAcceptanceOrder :
    ∃ s : State, s.phase = .idle ∧ s.resetLine = .released ∧
      s.requester = [encode (.writeCmd 0#8 0#32), ⟨0x2#4, 5#8, 7#32, 3, [0x01#8]⟩] ++ [] ∧
      [encode (.writeCmd 0#8 0#32), ⟨0x2#4, 5#8, 7#32, 3, [0x01#8]⟩].map decode =
        [Instr.writeCmd 0#8 0#32, .readR1].map Decoded.instr ∧
      (∀ i ∈ [Instr.writeCmd 0#8 0#32, .readR1], i.WellFormed s.cfg) ∧
      ([[], [0x01#8]] : List (List Byte)).length =
        ([Instr.writeCmd 0#8 0#32, .readR1].flatMap (script s.cfg)).length ∧
      s.answers = ([[], [0x01#8]] : List (List Byte)).map LinkAnswerOf.ok ++ [] :=
  ⟨{ State.reset with
      requester := [encode (.writeCmd 0#8 0#32), ⟨0x2#4, 5#8, 7#32, 3, [0x01#8]⟩]
      answers := [.ok [], .ok [0x01#8]] }, rfl, rfl, rfl, by decide, by decide, by decide, rfl⟩
/-- Over the sets of naturals, an uncountable type: the functional form returns the error on one link and
diverges on another. -/
theorem witness_EngineRefinesFunctionalFormForEveryErrorType (f : LinkError → Set Nat) :
    Presented (encode .readR1) [] (presenting (encode .readR1) [.err e1 0]) ∧
    decode (encode .readR1) = .instr .readR1 ∧ Instr.readR1.WellFormed State.reset.cfg ∧
    completionOf .readR1 (runScript (fun m => renameAnswer f (Config.linkAnswer m)) 0
      (script State.reset.cfg .readR1) ([.err e1 0].map (renameAnswer f))).ending =
        some (.linkErr (f e1)) ∧
    completionOf .readR1 (runScript (fun m => renameAnswer f (Config.linkAnswer m)) 0
      (script State.reset.cfg .readR1) ([.silent].map (renameAnswer f))).ending = none :=
  ⟨presenting_presented _ _, rfl, rfl, rfl, rfl⟩
/-- Equal states, and two IDLE states that differ in the accumulator, each taking a next step. -/
theorem witness_EveryStepKeepsStatesIndistinguishable :
    SameFromOutside (during .readR1 [] [.ok [0x01#8]]) (during .readR1 [] [.ok [0x01#8]]) ∧
    SameFromOutside (presenting (encode .readR1) []) { presenting (encode .readR1) [] with acc := 5#128 } ∧
    (∃ t, step (presenting (encode .readR1) []) = .next t) ∧
    ∃ t, step { presenting (encode .readR1) [] with acc := 5#128 } = .next t :=
  ⟨.inl rfl, .inr ⟨rfl, rfl⟩, ⟨_, rfl⟩, _, rfl⟩

end Sys2Proof.Machine.Tests
end

section
/-! PROOFS. Renaming the link's error values commutes with every operation of the engine, and so with a step (00_scope.md R12, 60_exceptions.md R171). -/

namespace Sys2Proof.Machine

variable (f : LinkError → LinkError) (s : State)

/-! ### What renaming leaves of each field -/

@[simp] theorem State.rename_phase : (s.rename f).phase = s.phase := rfl
@[simp] theorem State.rename_req : (s.rename f).req = s.req := rfl
@[simp] theorem State.rename_calls : (s.rename f).calls = s.calls := rfl
@[simp] theorem State.rename_k : (s.rename f).k = s.k := rfl
@[simp] theorem State.rename_inb : (s.rename f).inb = s.inb := rfl
@[simp] theorem State.rename_crc : (s.rename f).crc = s.crc := rfl
@[simp] theorem State.rename_frame : (s.rename f).frame = s.frame := rfl
@[simp] theorem State.rename_acc : (s.rename f).acc = s.acc := rfl
@[simp] theorem State.rename_completions :
    (s.rename f).completions = s.completions.map (renameCompletion f) := rfl
@[simp] theorem State.rename_cfg : (s.rename f).cfg = s.cfg := rfl
@[simp] theorem State.rename_requester : (s.rename f).requester = s.requester := rfl
@[simp] theorem State.rename_answers : (s.rename f).answers = s.answers.map (renameAnswer f) := rfl
@[simp] theorem State.rename_traffic : (s.rename f).traffic = s.traffic := rfl
@[simp] theorem State.rename_resetLine : (s.rename f).resetLine = s.resetLine := rfl

/-! ### Renaming commutes with the engine's operations -/

theorem State.rename_complete (c : Completion) :
    (s.rename f).complete (renameCompletion f c) = (s.complete c).rename f := by
  simp [State.complete, State.rename]

theorem State.rename_sendCall (c : LinkCall) (n : Nat) :
    (s.rename f).sendCall c n = (s.sendCall c n).rename f := by
  simp [State.sendCall, State.rename]

theorem State.rename_receive (c : LinkCall) (d : List Byte) (ab : Value → List Byte → Value) :
    (s.rename f).receive c d ab = (s.receive c d ab).rename f := by
  simp only [State.receive, State.rename_sendCall]
  rfl

theorem State.rename_finishStep (i : Instr) :
    finishStep i (s.rename f) = (finishStep i s).rename f := by
  cases i with
  | crc7 data => exact State.rename_complete f { s with crc := stepBytes s.crc data } (.ok _ _ _)
  | _ => exact State.rename_complete f s (.ok _ _ _)

theorem State.rename_abandonCall (p : Option Nat) :
    (s.rename f).abandonCall p = (s.abandonCall p).rename f := by
  unfold State.abandonCall
  simp only [State.rename_phase, State.rename_calls, State.rename_k, State.rename_sendCall]
  split <;> rfl

theorem State.rename_blockReset (p : Option Nat) :
    (s.rename f).blockReset p = (s.blockReset p).rename f := by
  simp only [State.blockReset, State.rename_abandonCall]
  rfl

variable {s}

/-- A listed answer is renamed; the free value past the list would not be. -/
theorem State.rename_nextAnswer (h : s.answers ≠ []) :
    (s.rename f).nextAnswer = renameAnswer f s.nextAnswer := by
  obtain ⟨a, as, ha⟩ := List.exists_cons_of_ne_nil h
  simp [State.nextAnswer, ha]

theorem rename_linkCall (h : s.answers ≠ []) (c : LinkCall) (ab : Value → List Byte → Value) :
    (s.rename f).linkCall c ab = mapOut (State.rename f) (s.linkCall c ab) := by
  unfold State.linkCall
  rw [State.rename_nextAnswer f h]
  cases s.nextAnswer with
  | ok d => exact congrArg _ (State.rename_receive f s c d ab)
  | err e n =>
    simp only [renameAnswer, State.rename_sendCall]
    exact congrArg _ (State.rename_complete f (s.sendCall c n) (.linkErr e))
  | silent => rfl

theorem rename_exec (h : s.answers ≠ []) (i : Instr) :
    exec i (s.rename f) = mapOut (State.rename f) (exec i s) := by
  simp only [exec_eq_operate, State.operate, State.rename_phase, State.rename_cfg,
    State.rename_calls, State.rename_k]
  cases s.phase with
  | idle => cases refusalOf s.cfg i <;> rfl
  | running =>
    cases s.calls[s.k]? with
    | some c => exact rename_linkCall f h c _
    | none => exact congrArg _ (State.rename_finishStep f s i)

/-- The latched request is the same and the rest of the state is renamed. -/
theorem rename_fetch :
    (s.rename f).fetch = s.fetch.map (fun p => (p.1, p.2.rename f)) := by
  simp only [State.fetch, State.rename_phase, State.rename_requester]
  cases s.phase with
  | running => rfl
  | idle => cases s.requester <;> rfl

/-- Latching a request uses up no answer. -/
theorem fetch_answers {r : Request} {t : State} (h : s.fetch = some (r, t)) :
    t.answers = s.answers := by
  unfold State.fetch at h
  split at h
  · cases h; rfl
  · split at h <;> cases h
    rfl

/-- Settles O51: reset, acceptance, the link call, the error and the finish each commute with renaming. -/
theorem linkErrorIsNeverInspected : Obligations.LinkErrorIsNeverInspected := by
  intro f s hs
  unfold step
  rw [State.rename_resetLine, rename_fetch]
  cases s.resetLine with
  | asserted p => exact congrArg _ (State.rename_blockReset f s p)
  | released =>
    cases hf : s.fetch with
    | none => rfl
    | some p =>
      obtain ⟨r, t⟩ := p
      dsimp only [Option.map_some]
      cases decode r with
      | unassigned op => rfl
      | instr i => exact rename_exec f (fetch_answers hf ▸ hs) i

end Sys2Proof.Machine
end

section
/-! PROOFS. The engine runs its script as the functional form says (10_state.md R30): the invariant along a RUNNING operation, the accumulator and the result buffer at the finish, and the run itself by induction on the calls left. -/

namespace Sys2Proof.Machine

/-! ### The accumulator is the big-endian value -/

/-- R121: a byte shifted in is a multiplication by 2^8 and an addition, modulo 2^128. -/
theorem accShift_ofNat (v : Nat) (b : Byte) :
    accShift (BitVec.ofNat 128 v) b = BitVec.ofNat 128 (v * 2 ^ 8 + b.toNat) := by
  rw [← Nat.shiftLeft_eq, Nat.shiftLeft_add_eq_or_of_lt b.isLt, BitVec.ofNat_or, accShift]
  congr 1
  · apply BitVec.eq_of_toNat_eq
    simp [Nat.shiftLeft_eq, Nat.mod_mul_mod]
  · exact (BitVec.ofNat_toNat 128 b).symm

/-- R121, R122: the accumulator holds, modulo 2^128, what was in it shifted up and the sequence's
big-endian value. -/
theorem accBytes_ofNat (v : Nat) (s : List Byte) :
    accBytes (BitVec.ofNat 128 v) s = BitVec.ofNat 128 (v * 2 ^ (8 * s.length) + be s) := by
  induction s generalizing v with
  | nil => simp [be]
  | cons b rest ih =>
    have hstep : accBytes (BitVec.ofNat 128 v) (b :: rest) =
        accBytes (accShift (BitVec.ofNat 128 v) b) rest := rfl
    rw [hstep, accShift_ofNat, ih, be, List.length_cons]
    congr 1
    ring

theorem accBytes_zero (s : List Byte) : accBytes 0#128 s = BitVec.ofNat 128 (be s) := by
  simpa using accBytes_ofNat 0 s

/-! ### The invariant along an operation -/

/-- Acceptance sets up the invariant (R26). -/
theorem runningInv_load {i : Instr} {s : State} (hw : i.WellFormed s.cfg) :
    RunningInv i (s.load (script s.cfg i) (frameBuffer i)) where
  wellFormed := hw
  calls_eq := rfl
  k_eq := rfl
  k_le := Nat.zero_le _
  inb_len := rfl
  crc_eq := rfl
  frame_eq := rfl
  acc_eq := by simp

/-- A call that answers ok keeps the invariant (R28). -/
theorem runningInv_receive {i : Instr} {s : State} {c : LinkCall} (h : RunningInv i s)
    (hc : s.calls[s.k]? = some c) (d : List Byte) :
    RunningInv i (s.receive c d (absorbOf i)) where
  wellFormed := h.wellFormed
  calls_eq := h.calls_eq
  k_eq := by simp [h.k_eq]
  k_le := (List.getElem?_eq_some_iff.mp hc).1
  inb_len := by simp [List.take_add_one, hc, h.inb_len]
  crc_eq := h.crc_eq
  frame_eq := h.frame_eq
  acc_eq := by
    cases hr : isReadResponse i <;>
      simp [absorbOf, hr, h.acc_eq, ignoreInbound, accBytes_append]

/-- With every call made, as many bytes came in as the script's calls return. -/
theorem RunningInv.inb_lengths {i : Instr} {s : State} (h : RunningInv i s)
    (hk : s.calls.length ≤ s.k) : s.inb.map List.length = (script s.cfg i).map callInLen := by
  rw [h.inb_len, List.take_of_length_le hk, h.calls_eq]

/-- READ_DATA's one exchange brought in n bytes (R145). -/
theorem RunningInv.readData_flatten_length {n : Nat} {s : State} (h : RunningInv (.readData n) s)
    (hk : s.calls.length ≤ s.k) : s.inb.flatten.length = n := by
  rw [List.length_flatten, h.inb_lengths hk]
  simp [script, callInLen, sentinels]

/-- What is seen of `s` once its operation has ended with the completion `c`: the block IDLE, the calls
`events` made and `answers` left. -/
def State.ended (s : State) (c : Completion) (events : List LinkEvent)
    (answers : List LinkAnswer) : Observed :=
  { s.observe with
    phase := .idle
    completions := s.completions ++ [c]
    traffic := s.traffic ++ events
    answers := answers }

/-- What is seen of a completion in place. -/
theorem State.complete_observe (c : Completion) (s : State) :
    (s.complete c).observe = s.ended c [] s.answers := by
  simp [State.ended, State.observe]

/-- The call that fails is the last one made (R171). -/
theorem State.sendCall_complete_observe (c : LinkCall) (n : Nat) (c' : Completion) (s : State) :
    ((s.sendCall c n).complete c').observe = s.ended c' [sentPart c n] s.answers.tail := by
  simp [State.ended, State.observe, sentPart]

/-- A call received, then the rest of the operation. -/
theorem State.receive_ended (c : LinkCall) (d : List Byte) (ab : Value → List Byte → Value)
    (c' : Completion) (events : List LinkEvent) (answers : List LinkAnswer) (s : State) :
    (s.receive c d ab).ended c' events answers = s.ended c' (sentWhole c :: events) answers := by
  simp [State.ended, State.observe]

/-- The engine's finish presents the completion the functional form returns (R29, R30). -/
theorem finishStep_observe {i : Instr} {s : State} (h : RunningInv i s)
    (hk : s.calls.length ≤ s.k) :
    (finishStep i s).observe = s.ended (finishOf i s.inb) [] s.answers := by
  have hread : isReadResponse i = true →
      finishResponse s = s.complete (.ok (BitVec.ofNat 128 (be s.inb.flatten)) false []) := by
    intro hr
    simp [finishResponse, h.acc_eq, hr, accBytes_zero]
  cases i with
  | crc7 data =>
    have hcrc : stepBytes s.crc data = crc7Rem data := by rw [h.crc_eq, crc7Rem]
    rw [finishStep, finishCrc7, hcrc]
    exact State.complete_observe _ { s with crc := crc7Rem data }
  | readR1 | readR4 | readR16 => rw [finishStep, hread rfl]; exact State.complete_observe _ s
  | readData n =>
    rw [finishStep, finishReadData, readBuffer_eq n _ (h.readData_flatten_length hk)]
    exact State.complete_observe _ s
  | writeCmd | writeData | flush | isBusy => exact State.complete_observe _ s

/-! ### A run of the engine against a run of the script -/

/-- Put the inbound bytes of the calls made before in front of a script's end. -/
def ScriptEnd.prepend {ε : Type} (pre : List (List Byte)) : ScriptEnd ε → ScriptEnd ε
  | .returned ins => .returned (pre ++ ins)
  | .failed e => .failed e
  | .diverged => .diverged

@[simp] theorem ScriptEnd.prepend_nil {ε : Type} (r : ScriptEnd ε) : r.prepend [] = r := by
  cases r <;> rfl

/-- A call in front of a run is a call made before it. -/
theorem ScriptRun.after_ending_prepend {ε : Type} (pre : List (List Byte)) (got : List Byte)
    (ev : LinkEvent) (r : ScriptRun ε) :
    (r.after got ev).ending.prepend pre = r.ending.prepend (pre ++ [got]) := by
  obtain ⟨ending, _, _⟩ := r
  cases ending <;> simp [ScriptRun.after, ScriptEnd.prepend]

section
variable {ε : Type} {more : Nat → LinkAnswerOf ε} {m : Nat} {as : List (LinkAnswerOf ε)} (c : LinkCall)
  (rest : List LinkCall)

/-- R30, a call that answers ok: it stands in front of the run of the calls left. -/
theorem runScript_ok {d : List Byte} (h : answerFrom more m as = .ok d) :
    runScript more m (c :: rest) as =
      (runScript more (m + 1) rest as.tail).after (callInbound m c d) (sentWhole c) := by
  simp only [runScript, h, sentWhole]

/-- R30, a call that fails: the run ends with it. -/
theorem runScript_err {e : ε} {n : Nat} (h : answerFrom more m as = .err e n) :
    runScript more m (c :: rest) as = ⟨.failed e, [sentPart c n], as.tail⟩ := by
  simp only [runScript, h, sentPart]

/-- R30, a call that never returns: the run diverges (log 22). -/
theorem runScript_silent (h : answerFrom more m as = .silent) :
    runScript more m (c :: rest) as = ⟨.diverged, [], as⟩ := by
  simp only [runScript, h]

end

/-- From `s`, the operation in progress ends as the run `R` of the calls left says, the inbound bytes
kept so far in front of its own: with its completion in at most `k + 1` steps, or, where `R` diverges,
blocked in at most `k` steps (log 7). -/
structure OperationEnds (i : Instr) (k : Nat) (s : State) (R : ScriptRun LinkError) : Prop where
  completes : ∀ c, completionOf i (R.ending.prepend s.inb) = some c →
    ∃ n ≤ k + 1, ∃ t, run n s = .next t ∧ t.observe = s.ended c R.traffic R.answers
  blocks : completionOf i (R.ending.prepend s.inb) = none →
    ∃ n ≤ k, run n s = .fault .linkNeverAnswers

/-- While RUNNING and out of reset, a step is one of the accepted operation. -/
theorem step_running {s : State} {i : Instr} (hp : s.phase = .running)
    (hr : s.resetLine = .released) (hd : decode s.req = .instr i) : step s = exec i s := by
  simp only [step, hr, fetch_running hp, hd]

/-- A step that makes the call `c`, then the rest of the operation. -/
theorem OperationEnds.of_receive {i : Instr} {k : Nat} {s : State} {c : LinkCall} {d : List Byte}
    {ab : Value → List Byte → Value} {R : ScriptRun LinkError}
    (hs : step s = .next (s.receive c d ab)) (h : OperationEnds i k (s.receive c d ab) R) :
    OperationEnds i (k + 1) s (R.after (callInbound s.traffic.length c d) (sentWhole c)) := by
  obtain ⟨hcompletes, hblocks⟩ := h
  rw [State.receive_inb] at hcompletes hblocks
  refine ⟨fun c' hc => ?_, fun hc => ?_⟩ <;> rw [ScriptRun.after_ending_prepend] at hc
  · obtain ⟨n, hn, t, ht, hobs⟩ := hcompletes c' hc
    refine ⟨n + 1, by omega, t, by rw [run_succ hs, ht], ?_⟩
    rw [hobs, State.receive_ended]
    rfl
  · obtain ⟨n, hn, hf⟩ := hblocks hc
    exact ⟨n + 1, by omega, by rw [run_succ hs, hf]⟩

/-- From any point of an operation, the engine ends as the functional form of the calls left says
(R28 to R30). -/
theorem running_operationEnds {i : Instr} (rest : List LinkCall) {s : State}
    (hp : s.phase = .running) (hr : s.resetLine = .released) (hd : decode s.req = .instr i)
    (hinv : RunningInv i s) (hrest : s.calls.drop s.k = rest) :
    OperationEnds i rest.length s
      (runScript Config.linkAnswer s.traffic.length rest s.answers) := by
  induction rest generalizing s with
  | nil =>
    have hk : s.calls.length ≤ s.k := List.drop_eq_nil_iff.mp hrest
    have hstep : step s = .next (finishStep i s) := by
      rw [step_running hp hr hd, exec_eq_operate, operate_finish hp (List.getElem?_eq_none hk)]
    refine ⟨fun c hc => ?_, fun hc => by cases hc⟩
    have hfin : finishOf i s.inb = c := by simpa [runScript, ScriptEnd.prepend, completionOf] using hc
    exact ⟨1, Nat.le_refl 1, finishStep i s, run_succ hstep, hfin ▸ finishStep_observe hinv hk⟩
  | cons c rest ih =>
    have hc : s.calls[s.k]? = some c := by
      rw [← List.head?_drop, hrest, List.head?_cons]
    have hdrop : s.calls.drop (s.k + 1) = rest := by
      rw [← List.tail_drop, hrest, List.tail_cons]
    have hstep : step s = s.linkCall c (absorbOf i) := by
      rw [step_running hp hr hd, exec_eq_operate, operate_call hp hc]
    obtain ⟨d, ha, hl⟩ | ⟨e, n, ha, hl⟩ | ⟨ha, hl⟩ := linkCall_cases c (absorbOf i) s
    · have hends := ih (s := s.receive c d (absorbOf i)) hp hr hd (runningInv_receive hinv hc d) hdrop
      rw [State.receive_traffic, List.length_append] at hends
      rw [runScript_ok c rest ha]
      exact .of_receive (hstep.trans hl) hends
    · rw [runScript_err c rest ha]
      refine ⟨fun c' hc => ?_, fun hc => by cases hc⟩
      cases hc
      exact ⟨1, by omega, _, run_succ (hstep.trans hl), State.sendCall_complete_observe c n _ s⟩
    · rw [runScript_silent c rest ha]
      refine ⟨fun c' hc => (by cases hc), fun _ => ?_⟩
      exact ⟨1, by simp, by simp only [run, hstep, hl]⟩

/-- The block that has just accepted the presented request `r` for the operation `i` (R26). -/
def State.accepted (s : State) (r : Request) (rest : List Request) (i : Instr) : State :=
  ({ s with req := r, requester := rest } : State).load (script s.cfg i) (frameBuffer i)

/-- A presented, well-formed request is accepted (R26). -/
theorem step_presented {s : State} {r : Request} {rest : List Request} {i : Instr}
    (h : Presented r rest s) (hd : decode r = .instr i) (hw : i.WellFormed s.cfg) :
    step s = .next (s.accepted r rest i) := by
  rw [step, h.released, fetch_presented h]
  simp only [hd, exec_eq_operate]
  exact operate_accept (s := { s with req := r, requester := rest }) h.idle hw

/-- Of acceptance, only the request gone from the port is seen once the operation has ended. -/
theorem State.accepted_ended {s : State} (hp : s.phase = .idle) (r : Request) (rest : List Request)
    (i : Instr) (c : Completion) (events : List LinkEvent) (answers : List LinkAnswer) :
    (s.accepted r rest i).ended c events answers =
      { s.observe with
        completions := s.completions ++ [c]
        traffic := s.traffic ++ events
        answers := answers
        requester := rest } := by
  simp [State.ended, State.accepted, State.observe, hp]

/-- From the presented request on, the engine does what the functional form says (R26, R30): with its
completion in at most two steps more than the script has calls, or, where that form diverges, blocked in
at most one more (log 7, log 8). -/
theorem presented_endsIn {s : State} {r : Request} {rest : List Request} {i : Instr}
    {R : ScriptRun LinkError} (h : Presented r rest s) (hd : decode r = .instr i)
    (hw : i.WellFormed s.cfg)
    (hR : R = runScript Config.linkAnswer s.traffic.length (script s.cfg i) s.answers) :
    (∀ c, completionOf i R.ending = some c →
      ∃ n ≤ (script s.cfg i).length + 2, EndsIn n s c R.traffic R.answers rest) ∧
    (completionOf i R.ending = none →
      ∃ n ≤ (script s.cfg i).length + 1, run n s = .fault .linkNeverAnswers) := by
  have hstep := step_presented h hd hw
  have hends : OperationEnds i (script s.cfg i).length (s.accepted r rest i) R := by
    rw [hR]
    exact running_operationEnds (script s.cfg i) rfl h.released hd
      (runningInv_load (s := { s with req := r, requester := rest }) hw) rfl
  obtain ⟨hcompletes, hblocks⟩ := hends
  have hinb : R.ending.prepend (s.accepted r rest i).inb = R.ending := R.ending.prepend_nil
  rw [hinb] at hcompletes hblocks
  refine ⟨fun c hc => ?_, fun hc => ?_⟩
  · obtain ⟨n, hn, t, ht, hobs⟩ := hcompletes c hc
    exact ⟨n + 1, by omega, t, by rw [run_succ hstep, ht], by rw [hobs, State.accepted_ended h.idle]⟩
  · obtain ⟨n, hn, hf⟩ := hblocks hc
    exact ⟨n + 1, by omega, by rw [run_succ hstep, hf]⟩

end Sys2Proof.Machine
end

section
/-! PROOFS. The functional form over another type of errors is the functional form over this machine's, read in that type (00_scope.md R12, 10_state.md R30). -/

namespace Sys2Proof.Machine

variable {ε ε' : Type} (f : ε → ε')

/-- Rename the error a script ends with. -/
def renameEnd : ScriptEnd ε → ScriptEnd ε'
  | .returned ins => .returned ins
  | .failed e => .failed (f e)
  | .diverged => .diverged

/-- Rename the errors wherever a run of a script holds one. -/
def renameRun (R : ScriptRun ε) : ScriptRun ε' :=
  { ending := renameEnd f R.ending
    traffic := R.traffic
    answers := R.answers.map (renameAnswer f) }

theorem renameRun_after (got : List Byte) (ev : LinkEvent) (R : ScriptRun ε) :
    (renameRun f R).after got ev = renameRun f (R.after got ev) := by
  obtain ⟨ending, _, _⟩ := R
  cases ending <;> rfl

/-- A script run against the renamed link is the renamed run: no call looks into an error. -/
theorem runScript_rename (more : Nat → LinkAnswerOf ε) (m : Nat) (calls : List LinkCall)
    (as : List (LinkAnswerOf ε)) :
    runScript (fun m => renameAnswer f (more m)) m calls (as.map (renameAnswer f)) =
      renameRun f (runScript more m calls as) := by
  induction calls generalizing m as with
  | nil => rfl
  | cons c rest ih =>
    have hans := renameAnswer_answerFrom f more m as
    cases ha : answerFrom more m as with
    | ok d =>
      rw [ha] at hans
      rw [runScript_ok c rest ha, runScript_ok c rest hans, ← List.map_tail, ih, renameRun_after]
    | err e n =>
      rw [ha] at hans
      rw [runScript_err c rest ha, runScript_err c rest hans, ← List.map_tail]
      rfl
    | silent =>
      rw [ha] at hans
      rw [runScript_silent c rest ha, runScript_silent c rest hans]
      rfl

/-- The completion of a renamed end is the renamed completion: only the link's own error is renamed. -/
theorem completionOf_renameEnd (i : Instr) (e : ScriptEnd ε) :
    completionOf i (renameEnd f e) = (completionOf i e).map (renameCompletion f) := by
  cases e with
  | returned ins => cases i <;> rfl
  | failed e => rfl
  | diverged => rfl

/-- Settles O54: the engine refines the functional form over this machine's errors, and that form over
any other type is its renaming. -/
theorem engineRefinesFunctionalFormForEveryErrorType :
    Obligations.EngineRefinesFunctionalFormForEveryErrorType := by
  intro ε f s r rest i R h hd hw hR
  rw [runScript_rename] at hR
  subst hR
  obtain ⟨hcompletes, hblocks⟩ := presented_endsIn h hd hw rfl
  simp only [renameRun, completionOf_renameEnd, Option.map_eq_some_iff, Option.map_eq_none_iff]
  refine ⟨fun c hc => ?_, fun hc => ?_⟩
  · obtain ⟨c', hc', hrename⟩ := hc
    obtain ⟨n, _, hends⟩ := hcompletes c' hc'
    exact ⟨n, c', _, hrename, rfl, hends⟩
  · obtain ⟨n, _, hfault⟩ := hblocks hc
    exact ⟨n, hfault⟩

end Sys2Proof.Machine
end

section
/-! PROOFS. What a single step does, phase by phase: a presented request is refused or accepted (10_state.md R26), a link call that answers ok moves on (R28), and the frame of `exec` over all nine operations. -/

namespace Sys2Proof.Machine

/-! ### The finish, the accumulator and the link call that answers ok -/

@[simp] theorem finishStep_phase (i : Instr) (s : State) : (finishStep i s).phase = .idle := by
  obtain ⟨c, crc, hfin, -⟩ := finishStep_eq i s
  rw [hfin, State.complete_phase]

/-- Only a read response shifts inbound bytes into the accumulator (R121; log 13). -/
theorem absorbOf_apply (i : Instr) (acc : Value) (bytes : List Byte) :
    absorbOf i acc bytes = if isReadResponse i then accBytes acc bytes else acc := by
  cases hr : isReadResponse i <;> simp [absorbOf, hr, ignoreInbound]

theorem linkCall_ok {s : State} {d : List Byte} (h : s.nextAnswer = .ok d) (c : LinkCall)
    (ab : Value → List Byte → Value) : s.linkCall c ab = .next (s.receive c d ab) := by
  simp only [State.linkCall, h]

/-- An operation with no refusal is well formed (R176). -/
theorem wellFormed_of_refusalOf_eq_none {p : Params} {i : Instr} (h : refusalOf p i = none) :
    i.WellFormed p := by
  unfold refusalOf at h
  split at h
  · assumption
  · cases h
  · cases h

/-! ### A presented request -/

section
variable {s : State} {r : Request} {rest : List Request} (h : Presented r rest s)
include h

/-- A presented request is latched and its operation takes one step (R26). -/
theorem step_eq_exec_of_presented {i : Instr} (hd : decode r = .instr i) :
    step s = exec i { s with req := r, requester := rest } := by
  simp only [step, h.released, fetch_presented h, hd]

/-- An unassigned op code is refused (R173). -/
theorem step_refused_of_unassigned {op : BitVec 4} (hd : decode r = .unassigned op) :
    step s = .refused (.unassignedOp op) := by
  simp only [step, h.released, fetch_presented h, hd]

/-- An ill-formed request is refused (R174, R175). -/
theorem step_refused_of_refusalOf {i : Instr} {q : Refusal} (hd : decode r = .instr i)
    (hq : refusalOf s.cfg i = some q) : step s = .refused q := by
  rw [step_eq_exec_of_presented h hd, exec_eq_operate]
  exact operate_refuse h.idle hq

end

/-! ### The obligations on one step -/

/-- Settles O19: `step` fetches the request, decodes it and runs `exec`. -/
theorem stepRunsTheDecodedOperation : Obligations.StepRunsTheDecodedOperation :=
  ⟨fun _ _ _ _ h hd => step_eq_exec_of_presented h hd,
    fun _ _ hp hr hd => step_running hp hr hd⟩

/-- Settles O21: acceptance is `State.load` of the script and the frame buffer. -/
theorem acceptanceIsTheWholeChange : Obligations.AcceptanceIsTheWholeChange := by
  intro s i hp hw
  rw [exec_eq_operate, operate_accept hp hw]
  cases i <;> rfl

/-- Settles O22: the link call is `State.receive`. -/
theorem linkCallOkAdvances : Obligations.LinkCallOkAdvances := by
  intro s i c driven hp hc ha
  rw [exec_eq_operate, operate_call hp hc, linkCall_ok ha]
  simp [State.receive, State.sendCall, absorbOf_apply, sentWhole]

/-- Settles O30, by the four things `exec` can do: accept, receive, end in the link's error, finish. -/
theorem execFrame : Obligations.ExecFrame := by
  intro s t i h
  obtain ⟨hp, -, rfl⟩ | ⟨c, d, hp, hc, -, rfl⟩ | ⟨c, e, n, hp, hc, -, rfl⟩ | ⟨hp, hc, rfl⟩ :=
    exec_next_cases h
  · simp [hp]
  · simp +contextual [hp, hc, absorbOf_apply]
  · simp [hp, hc]
  · obtain ⟨c, crc, hfin, hcrc⟩ := finishStep_eq i s
    simpa [hfin, hp, hc] using hcrc

/-- While RUNNING no step takes a request off the port (R196). -/
theorem step_running_requester {s t : State} (hp : s.phase = .running)
    (hr : s.resetLine = .released) (h : step s = .next t) : t.requester = s.requester := by
  obtain ⟨p, hreset, -⟩ | ⟨-, hidle, -⟩ | ⟨r, rest, i, hpres, -⟩ | ⟨i, -, -, -, hexec⟩ :=
    step_next_cases h
  · simp [hr] at hreset
  · simp [hp] at hidle
  · cases hpres.idle.symm.trans hp
  · obtain ⟨-, hreq, -⟩ := execFrame s t i hexec
    exact hreq

/-- Settles O20: refusal, acceptance, and the port left alone while RUNNING. -/
theorem presentedRequestIsAcceptedOrRefused : Obligations.PresentedRequestIsAcceptedOrRefused :=
  ⟨fun _ _ _ _ h hd => step_refused_of_unassigned h hd,
    fun _ _ _ _ h hd hw =>
      ⟨_, step_presented h hd hw, rfl, rfl, rfl, rfl, rfl, rfl, rfl⟩,
    fun _ _ hp hr h => step_running_requester hp hr h⟩

/-- Settles O45: acceptance, then the run of the script call by call. -/
theorem engineRefinesFunctionalForm : Obligations.EngineRefinesFunctionalForm := by
  refine ⟨fun _ _ _ _ h hd => step_refused_of_unassigned h hd, fun s r rest i h hd hw => ?_⟩
  obtain ⟨hcompletes, hblocks⟩ := presented_endsIn h hd hw rfl
  split
  · next c hc => exact hcompletes c hc
  · next hc => exact hblocks hc

end Sys2Proof.Machine
end

section
/-! PROOFS. Every step keeps the engine's invariant: acceptance sets it up and a link call that answers ok keeps it (10_state.md R23, R26, R28); every other step leaves the block IDLE. -/

namespace Sys2Proof.Machine

/-- An IDLE block meets the invariant, which speaks of a RUNNING one. -/
theorem inv_of_idle {s : State} (h : s.phase = .idle) : Inv s := by
  intro hp
  simp [h] at hp

/-- One step of the operation that `req` asks for ends in a state that meets the invariant. -/
theorem exec_keeps_inv {i : Instr} {s t : State} (hd : decode s.req = .instr i)
    (hinv : s.phase = .running → RunningInv i s) (h : exec i s = .next t) : Inv t := by
  obtain ⟨-, hr, rfl⟩ | ⟨c, d, hp, hc, -, rfl⟩ | ⟨c, e, n, -, -, -, rfl⟩ | ⟨-, -, rfl⟩ :=
    exec_next_cases h
  · exact fun _ => ⟨i, hd, runningInv_load (wellFormed_of_refusalOf_eq_none hr)⟩
  · exact fun _ => ⟨i, hd, runningInv_receive (hinv hp) hc d⟩
  · exact inv_of_idle rfl
  · exact inv_of_idle (finishStep_phase i s)

/-- While RUNNING the invariant speaks of the operation that `req` decodes to. -/
theorem Inv.runningInv {i : Instr} {s : State} (h : Inv s) (hd : decode s.req = .instr i)
    (hp : s.phase = .running) : RunningInv i s := by
  obtain ⟨j, hj, hrun⟩ := h hp
  cases hd.symm.trans hj
  exact hrun

/-- Settles O47, by what `step` can do: reset, hold still, accept, or go on with the operation. -/
theorem everyStepKeepsInvariant : Obligations.EveryStepKeepsInvariant := by
  intro s t hinv h
  obtain ⟨p, -, rfl⟩ | ⟨-, -, -, rfl⟩ | ⟨r, rest, i, hpres, hd, hexec⟩ | ⟨i, -, -, hd, hexec⟩ :=
    step_next_cases h
  · exact inv_of_idle (State.blockReset_phase p s)
  · exact hinv
  · refine exec_keeps_inv hd (fun hp => ?_) hexec
    cases hpres.idle.symm.trans hp
  · exact exec_keeps_inv hd (hinv.runningInv hd) hexec

end Sys2Proof.Machine
end

section
/-! PROOFS. What an operation leaves behind cannot be seen later (10_state.md R21): two IDLE blocks that look the same either take the same step, since acceptance and reset overwrite every operation-local field, or both hold still. -/

namespace Sys2Proof.Machine

section
variable {s t : State} (h : s.observe = t.observe)
include h

/-- Acceptance overwrites every field that cannot be seen (R23, R26). -/
theorem accepted_eq_of_observe_eq (r : Request) (rest : List Request) (i : Instr) :
    s.accepted r rest i = t.accepted r rest i := by
  simp only [State.observe, Observed.mk.injEq] at h
  simp [State.accepted, State.load, h]

/-- A request presented to one block is presented to the other. -/
theorem presented_of_observe_eq {r : Request} {rest : List Request} (hs : Presented r rest s) :
    Presented r rest t where
  idle := (congrArg Observed.phase h).symm.trans hs.idle
  released := (congrArg Observed.resetLine h).symm.trans hs.released
  requester := (congrArg Observed.requester h).symm.trans hs.requester

/-- Both blocks answer a presented request alike. -/
theorem step_eq_of_presented {r : Request} {rest : List Request} (hs : Presented r rest s) :
    step s = step t := by
  have ht := presented_of_observe_eq h hs
  have hcfg : s.cfg = t.cfg := congrArg Observed.cfg h
  cases hd : decode r with
  | unassigned op => rw [step_refused_of_unassigned hs hd, step_refused_of_unassigned ht hd]
  | instr i =>
    cases hq : refusalOf s.cfg i with
    | some q =>
      rw [step_refused_of_refusalOf hs hd hq, step_refused_of_refusalOf ht hd (hcfg ▸ hq)]
    | none =>
      have hw := wellFormed_of_refusalOf_eq_none hq
      rw [step_presented hs hd hw, step_presented ht hd (hcfg ▸ hw), accepted_eq_of_observe_eq h]

end

/-- An IDLE block has no call in flight to abandon (R191). -/
theorem abandonCall_of_idle {s : State} (hp : s.phase = .idle) (p : Option Nat) :
    s.abandonCall p = s := by
  simp [State.abandonCall, hp]

/-- Reset overwrites every field that cannot be seen (R190, R191; log 10). -/
theorem blockReset_eq_of_observe_eq {s t : State} (hp : s.phase = .idle)
    (h : s.observe = t.observe) (p : Option Nat) : s.blockReset p = t.blockReset p := by
  simp only [State.observe, Observed.mk.injEq] at h
  obtain ⟨hphase, hrest⟩ := h
  simp [State.blockReset, abandonCall_of_idle hp, abandonCall_of_idle (hphase.symm.trans hp), hrest]

/-- IDLE and out of reset, with no request presented, the block holds still (R188). -/
theorem step_eq_self {s : State} (hp : s.phase = .idle) (hr : s.resetLine = .released)
    (hq : s.requester = []) : step s = .next s := by
  simp only [step, hr, State.fetch, hp, hq]

/-- Two IDLE blocks that look the same take the same step, or both hold still. -/
theorem step_idle_of_observe_eq {s t : State} (hp : s.phase = .idle) (h : s.observe = t.observe) :
    step s = step t ∨ (step s = .next s ∧ step t = .next t) := by
  have hphase : t.phase = .idle := (congrArg Observed.phase h).symm.trans hp
  have hreset : s.resetLine = t.resetLine := congrArg Observed.resetLine h
  have hport : s.requester = t.requester := congrArg Observed.requester h
  cases hr : s.resetLine with
  | asserted p =>
    left
    simp only [step, ← hreset, hr, blockReset_eq_of_observe_eq hp h p]
  | released =>
    cases hq : s.requester with
    | nil => exact .inr ⟨step_eq_self hp hr hq, step_eq_self hphase (hreset ▸ hr) (hport ▸ hq)⟩
    | cons r rest => exact .inl (step_eq_of_presented h ⟨hp, hr, hq⟩)

/-- States that look the same from outside take the same step, or both are IDLE and hold still. -/
theorem SameFromOutside.step_eq_or_still {s t : State} (h : SameFromOutside s t) :
    step s = step t ∨ (step s = .next s ∧ step t = .next t) := by
  obtain rfl | ⟨hp, hobs⟩ := h
  · exact .inl rfl
  · exact step_idle_of_observe_eq hp hobs

theorem SameFromOutside.observe_eq {s t : State} (h : SameFromOutside s t) :
    s.observe = t.observe := by
  obtain rfl | ⟨-, hobs⟩ := h
  · rfl
  · exact hobs

/-- Settles O55: the next states are the same, or the two blocks held still. -/
theorem everyStepKeepsStatesIndistinguishable :
    Obligations.EveryStepKeepsStatesIndistinguishable := by
  intro s t h
  obtain heq | ⟨hs, ht⟩ := h.step_eq_or_still
  · rw [heq]
    refine ⟨rfl, fun s' t' hs' ht' => .inl ?_⟩
    cases hs'.symm.trans ht'
    rfl
  · rw [hs, ht]
    refine ⟨congrArg Host.Outcome.next h.observe_eq, fun s' t' hs' ht' => ?_⟩
    cases hs'
    cases ht'
    exact h

/-- States that look the same from outside still do after any number of steps. -/
theorem run_observe_of_sameFromOutside (n : Nat) {s t : State} (h : SameFromOutside s t) :
    mapOut State.observe (run n s) = mapOut State.observe (run n t) := by
  induction n with
  | zero => exact congrArg Host.Outcome.next h.observe_eq
  | succ n ih =>
    obtain heq | ⟨hs, ht⟩ := h.step_eq_or_still
    · simp only [run, heq]
    · rw [run_succ hs, run_succ ht, ih]

/-- Settles O48: two such states are the same from outside. -/
theorem operationLocalFieldsAreUnobservable : Obligations.OperationLocalFieldsAreUnobservable :=
  fun n _ _ hp h => run_observe_of_sameFromOutside n (.inr ⟨hp, h⟩)

end Sys2Proof.Machine
end

section
/-! PROOFS. The link calls (20_memory.md): the widths each script moves (R50), what a call returns (R47) and sends (R48, R49), and the byte stream of a sequence of operations whose calls all answer ok (R54). -/

namespace Sys2Proof.Machine

/-! ### What a script holds and what a call returns -/

/-- A command frame is six bytes (R60). -/
@[simp] theorem frameBytes_length (f : CmdFrame) : (frameBytes f).length = 6 := rfl

/-- Byte i received is the i-th byte the card drives, where it drives one (R47). -/
theorem inboundFill_getElem? (callNo : Nat) {len i : Nat} {driven : List Byte} (hi : i < len)
    (hd : i < driven.length) : (inboundFill callNo len driven)[i]? = driven[i]? := by
  induction len generalizing i driven with
  | zero => simp at hi
  | succ len ih =>
    cases driven with
    | nil => simp at hd
    | cons b rest =>
      cases i with
      | zero => rfl
      | succ i => exact ih (by omega) (by simpa using hd)

/-- Settles O14: the script table, and a command frame is six bytes. -/
theorem scriptsMoveTheTabledWidths : Obligations.ScriptsMoveTheTabledWidths := by
  intro p idx arg data n
  exact ⟨rfl, ⟨_, frameBytes_length _, rfl⟩, rfl, rfl, rfl, rfl, rfl, rfl, rfl, rfl⟩

/-- Settles O16: the received bytes are filled to the call's length, the driven ones first. -/
theorem inboundHasTheLengthOfTheCall : Obligations.InboundHasTheLengthOfTheCall := by
  intro callNo out driven
  refine ⟨rfl, callInbound_length .., fun i hi hd => inboundFill_getElem? callNo hi hd, fun h => ?_⟩
  have hlen : callInLen (.transfer out) = driven.length := h.symm
  rw [callInbound, hlen, inboundFill_exact]

/-- Settles O17: both forms have the same bytes and lengths; of the nine scripts one is in place. -/
theorem transferFormsAreIndistinguishable : Obligations.TransferFormsAreIndistinguishable := by
  refine ⟨fun _ _ _ => ⟨rfl, rfl⟩, fun p i out h => ?_⟩
  cases i with
  | readData n => exact ⟨n, rfl⟩
  | _ => simp [script] at h

/-! ### A call that fails -/

/-- A call that fails ends the operation with the link's error (R28, R171). -/
theorem exec_linkCall_err {i : Instr} {s : State} {c : LinkCall} {e : LinkError} {n : Nat}
    (hp : s.phase = .running) (hc : s.calls[s.k]? = some c) (ha : s.nextAnswer = .err e n) :
    exec i s = .next ((s.sendCall c n).complete (.linkErr e)) := by
  rw [exec_eq_operate, operate_call hp hc]
  simp only [State.linkCall, ha, State.raiseLinkError_eq]

/-- Settles O18: the answer's number says how many of the first bytes were sent, and any first bytes are
what their own length gives. -/
theorem failingCallSendsAnyPrefix : Obligations.FailingCallSendsAnyPrefix := by
  intro s i c e as hp hc
  have hexec (n : Nat) : exec i { s with answers := .err e n :: as } = _ :=
    exec_linkCall_err hp hc rfl
  refine ⟨fun n => ?_, fun bytes hpre => ?_⟩
  · exact ⟨(callOut c).take n, _, List.take_prefix n _, hexec n, rfl, rfl, rfl, rfl⟩
  · refine ⟨bytes.length, _, hexec _, ?_⟩
    rw [State.complete_traffic, State.sendCall_traffic, ← List.prefix_iff_eq_take.mp hpre]

/-! ### A sequence of operations whose calls all answer ok -/

/-- With every call answered ok, a script returns, and each of its calls is made whole (R30, R54). -/
theorem runScript_all_ok {ε : Type} (more : Nat → LinkAnswerOf ε) (m : Nat) {calls : List LinkCall}
    {driven : List (List Byte)} (as : List (LinkAnswerOf ε)) (h : driven.length = calls.length) :
    ∃ ins, runScript more m calls (driven.map .ok ++ as) =
      ⟨.returned ins, calls.map sentWhole, as⟩ := by
  induction calls generalizing m driven with
  | nil => exact ⟨[], by simp [runScript, List.length_eq_zero_iff.mp h]⟩
  | cons c rest ih =>
    cases driven with
    | nil => simp at h
    | cons d driven =>
      obtain ⟨ins, hrest⟩ := ih (m + 1) (by simpa using h)
      refine ⟨callInbound m c d :: ins, ?_⟩
      rw [runScript_ok c rest (d := d) rfl, List.map_cons, List.cons_append, List.tail_cons, hrest]
      rfl

/-- A presented operation all of whose calls answer ok ends, each of its calls made whole. -/
theorem endsIn_of_all_ok {s : State} {r : Request} {rest : List Request} {i : Instr}
    {driven : List (List Byte)} {as : List LinkAnswer} (h : Presented r rest s)
    (hd : decode r = .instr i) (hw : i.WellFormed s.cfg)
    (hlen : driven.length = (script s.cfg i).length) (ha : s.answers = driven.map .ok ++ as) :
    ∃ n c, EndsIn n s c ((script s.cfg i).map sentWhole) as rest := by
  obtain ⟨ins, hrun⟩ := runScript_all_ok Config.linkAnswer s.traffic.length as hlen
  obtain ⟨hcompletes, -⟩ := presented_endsIn h hd hw (ha ▸ hrun.symm)
  obtain ⟨n, -, hends⟩ := hcompletes _ rfl
  exact ⟨n, _, hends⟩

/-- `EndsIn` for a sequence of operations: from `s`, in `n` steps, they end with the completions `cs`,
one for each, the link calls `events` made, and nothing else that can be seen has changed but the
accepted requests gone from the port and the used answers gone from the link. -/
def AllEndIn (n : Nat) (s : State) (cs : List Completion) (events : List LinkEvent)
    (answers : List LinkAnswer) (rest : List Request) : Prop :=
  ∃ t, run n s = .next t ∧
    t.observe =
      { s.observe with
        completions := s.completions ++ cs
        traffic := s.traffic ++ events
        answers := answers
        requester := rest }

/-- A sequence of requests whose calls all answer ok ends, every call made whole, in the order of
acceptance (R31, R54): by induction on the operations, the answers of the first one's calls split off. -/
theorem allEndIn_of_all_ok {ops : List Instr} {reqs rest : List Request} {s : State}
    {driven : List (List Byte)} {as : List LinkAnswer} (hp : s.phase = .idle)
    (hr : s.resetLine = .released) (hq : s.requester = reqs ++ rest)
    (hd : reqs.map decode = ops.map Decoded.instr) (hw : ∀ i ∈ ops, i.WellFormed s.cfg)
    (hlen : driven.length = (ops.flatMap (script s.cfg)).length)
    (ha : s.answers = driven.map .ok ++ as) :
    ∃ n cs, cs.length = ops.length ∧
      AllEndIn n s cs ((ops.flatMap (script s.cfg)).map sentWhole) as rest := by
  induction ops generalizing reqs s driven with
  | nil =>
    obtain rfl : reqs = [] := by simpa using hd
    obtain rfl : driven = [] := by simpa using hlen
    exact ⟨0, [], rfl, s, rfl, by simp [State.observe, hq, ha]⟩
  | cons i ops ih =>
    obtain ⟨r, reqs, rfl, hdr, hds⟩ := List.map_eq_cons_iff.mp hd
    obtain ⟨hwi, hws⟩ := List.forall_mem_cons.mp hw
    rw [List.flatMap_cons, List.length_append] at hlen
    obtain ⟨d, ds, rfl, hdi⟩ : ∃ d ds, driven = d ++ ds ∧ d.length = (script s.cfg i).length :=
      ⟨_, _, (List.take_append_drop _ driven).symm, List.length_take_of_le (by omega)⟩
    rw [List.length_append] at hlen
    rw [List.map_append, List.append_assoc] at ha
    obtain ⟨a, c, t, hrun, hobs⟩ := endsIn_of_all_ok ⟨hp, hr, hq⟩ hdr hwi hdi ha
    simp only [State.observe, Observed.mk.injEq] at hobs
    obtain ⟨hphase, hcompl, hcfg, hport, hans, htraffic, hreset⟩ := hobs
    obtain ⟨b, cs, hcs, u, hrun', hobs'⟩ := ih (s := t) (driven := ds) (hphase.trans hp)
      (hreset.trans hr) hport hds (hcfg ▸ hws)
      (by rw [hcfg]; omega) hans
    refine ⟨a + b, c :: cs, by simp [hcs], u, (run_add hrun).trans hrun', ?_⟩
    rw [hobs']
    simp [State.observe, hphase, hcompl, hcfg, htraffic, hreset]

/-- Calls made whole put exactly their outbound bytes on the link (R54). -/
theorem State.wire_of_sentWhole {s t : State} {calls : List LinkCall}
    (h : t.traffic = s.traffic ++ calls.map sentWhole) :
    t.wire = s.wire ++ calls.flatMap callOut := by
  simp [State.wire, h, List.flatMap_map, sentWhole]

/-- Settles O53: the calls of the whole sequence are made in order, each of them whole. -/
theorem outboundStreamIsInAcceptanceOrder : Obligations.OutboundStreamIsInAcceptanceOrder := by
  intro reqs ops s rest driven as hp hr hq hd hw hlen ha
  obtain ⟨n, cs, hcs, t, hrun, hobs⟩ := allEndIn_of_all_ok hp hr hq hd hw hlen ha
  simp only [State.observe, Observed.mk.injEq] at hobs
  obtain ⟨hphase, hcompl, -, hport, hans, htraffic, -⟩ := hobs
  refine ⟨n, t, hrun, hphase.trans hp, hport, hans, ?_, State.wire_of_sentWhole htraffic⟩
  rw [hcompl, List.length_append, hcs]

end Sys2Proof.Machine
end

section
/-! PROOFS. The encodings (30_encoding.md): the op codes (R64), decode against encode on every request record (R66, R67), the command frame's layout (R60 to R62) and its decoder (R63), and the sentinel of the reading operations (R65, R130). -/

namespace Sys2Proof.Machine

/-! ### The command frame -/

/-- The top bits of byte 0 are the marker (R62). -/
@[simp] theorem framingByte_marker (idx : BitVec 8) :
    (framingByte idx).extractLsb' 6 2 = 0b01#2 := by
  have h : (0x3F#8).extractLsb' 6 2 = 0#2 := rfl
  rw [framingByte, BitVec.extractLsb'_or, BitVec.extractLsb'_and, h, BitVec.and_zero]
  rfl

/-- The low bits of byte 0 are the index's (R62). -/
@[simp] theorem framingByte_index (idx : BitVec 8) :
    (framingByte idx).extractLsb' 0 6 = idx.extractLsb' 0 6 := by
  have h : (0x3F#8).extractLsb' 0 6 = BitVec.allOnes 6 := rfl
  rw [framingByte, BitVec.extractLsb'_or, BitVec.extractLsb'_and, h, BitVec.and_allOnes]
  exact BitVec.zero_or

/-- A byte is its bits 7:6 over its bits 5:0. -/
theorem byte_eq_append (b : Byte) : b.extractLsb' 6 2 ++ b.extractLsb' 0 6 = b :=
  (BitVec.extractLsb'_append_extractLsb'_eq_extractLsb' rfl).trans BitVec.extractLsb'_eq_self

/-- A byte with the marker is the framing byte of its own low six bits (R63). -/
theorem framingByte_of_marker {b : Byte} (h : b.extractLsb' 6 2 = 0b01#2) :
    framingByte ((b.extractLsb' 0 6).setWidth 8) = b := by
  rw [← byte_eq_append (framingByte _), framingByte_marker, framingByte_index,
    BitVec.extractLsb'_setWidth_of_le (by decide), BitVec.extractLsb'_eq_self, ← h, byte_eq_append]

/-- The argument is its four bytes, most significant first (R42, R102). -/
theorem arg_eq_append (arg : Arg) :
    arg.extractLsb' 24 8 ++ arg.extractLsb' 16 8 ++ arg.extractLsb' 8 8 ++ arg.extractLsb' 0 8 =
      arg := by
  simp (disch := omega) only [BitVec.extractLsb'_append_extractLsb'_eq_extractLsb']
  exact BitVec.extractLsb'_eq_self

/-- The bytes of an argument read back from their concatenation (R102). -/
theorem extractLsb'_append_bytes (b1 b2 b3 b4 : Byte) :
    (b1 ++ b2 ++ b3 ++ b4).extractLsb' 24 8 = b1 ∧ (b1 ++ b2 ++ b3 ++ b4).extractLsb' 16 8 = b2 ∧
    (b1 ++ b2 ++ b3 ++ b4).extractLsb' 8 8 = b3 ∧ (b1 ++ b2 ++ b3 ++ b4).extractLsb' 0 8 = b4 := by
  simp (disch := omega) only [BitVec.extractLsb'_append_eq_of_le,
    BitVec.extractLsb'_append_eq_of_add_le]
  simp

/-- A frame is valid when its marker and its check byte are right (R63). -/
theorem frameValid_iff (f : CmdFrame) :
    frameValid f = true ↔
      f.f0.extractLsb' 6 2 = 0b01#2 ∧ f.f5 = crc7Byte [f.f0, f.f1, f.f2, f.f3, f.f4] := by
  simp [frameValid]

@[simp] theorem frameValid_cmdFrame (idx : BitVec 8) (arg : Arg) :
    frameValid (cmdFrame idx arg) = true :=
  (frameValid_iff _).mpr ⟨framingByte_marker idx, rfl⟩

@[simp] theorem frameIndex_cmdFrame (idx : BitVec 8) (arg : Arg) :
    frameIndex (cmdFrame idx arg) = idx.extractLsb' 0 6 :=
  framingByte_index idx

@[simp] theorem frameArg_cmdFrame (idx : BitVec 8) (arg : Arg) :
    frameArg (cmdFrame idx arg) = arg :=
  arg_eq_append arg

/-- A valid frame is the frame of the index and the argument it carries (R63). -/
theorem cmdFrame_of_frameValid {f : CmdFrame} (h : frameValid f = true) :
    cmdFrame ((frameIndex f).setWidth 8) (frameArg f) = f := by
  obtain ⟨f0, f1, f2, f3, f4, f5⟩ := f
  obtain ⟨hmarker, hcheck⟩ := (frameValid_iff _).mp h
  dsimp only at hmarker hcheck
  obtain ⟨h1, h2, h3, h4⟩ := extractLsb'_append_bytes f1 f2 f3 f4
  simp only [cmdFrame, frameIndex, frameArg, framingByte_of_marker hmarker, h1, h2, h3, h4, hcheck]

/-- The bytes of a frame determine it (R60). -/
theorem frameBytes_injective : Function.Injective frameBytes := by
  rintro ⟨⟩ ⟨⟩ h
  simpa [frameBytes] using h

/-- The decoder on six bytes (R63). -/
theorem decodeFrame_frameBytes (f : CmdFrame) :
    decodeFrame (frameBytes f) = if frameValid f then some (frameIndex f, frameArg f) else none := rfl

/-- Whatever the decoder accepts is a valid frame with the index and argument it answers (R63). -/
theorem decodeFrame_eq_some {s : List Byte} {ix : BitVec 6} {arg : Arg}
    (h : decodeFrame s = some (ix, arg)) :
    ∃ f, s = frameBytes f ∧ frameValid f = true ∧ frameIndex f = ix ∧ frameArg f = arg := by
  unfold decodeFrame at h
  split at h
  · rename_i f0 f1 f2 f3 f4 f5
    obtain ⟨hv, hf⟩ := Option.ite_none_right_eq_some.mp h
    obtain ⟨hi, ha⟩ := Prod.mk.inj (Option.some.inj hf)
    exact ⟨⟨f0, f1, f2, f3, f4, f5⟩, rfl, hv, hi, ha⟩
  · cases h

/-- Settles O6: the frames of the block are the valid ones, and a valid frame is rebuilt from the index
and the argument read from it. -/
theorem frameDecoderInvertsFramer : Obligations.FrameDecoderInvertsFramer := by
  refine ⟨fun b0 b1 b2 b3 b4 b5 => ?_, fun idx arg => ?_, fun s ix arg h => ?_⟩
  · rw [← frameValid_iff ⟨b0, b1, b2, b3, b4, b5⟩]
    constructor
    · rintro ⟨idx, arg, h⟩
      rw [← frameBytes_injective (a₂ := ⟨b0, b1, b2, b3, b4, b5⟩) h]
      exact frameValid_cmdFrame idx arg
    · exact fun h => ⟨_, _, congrArg frameBytes (cmdFrame_of_frameValid h)⟩
  · simp [decodeFrame_frameBytes]
  · obtain ⟨f, rfl, hv, rfl, rfl⟩ := decodeFrame_eq_some h
    rw [cmdFrame_of_frameValid hv]

/-- Bits of byte `j` of a frame are bits of its 48-bit view, byte 0 at the top (R60). -/
theorem frameBits_field (f : CmdFrame) {j i len : Nat} (hj : j < 6) (hi : i + len ≤ 8) :
    (frameBits f).extractLsb' (8 * (5 - j) + i) len =
      ((frameBytes f)[j]'hj).extractLsb' i len := by
  change BitVec.extractLsb' (n := 8 + 8 + 8 + 8 + 8 + 8) _ _
    (f.f0 ++ f.f1 ++ f.f2 ++ f.f3 ++ f.f4 ++ f.f5) = _
  interval_cases j <;>
    simp (disch := omega) only [BitVec.extractLsb'_append_eq_of_le,
      BitVec.extractLsb'_append_eq_of_add_le] <;>
    simp [frameBytes, Nat.sub_sub]

/-- Byte `j` of a frame in its 48-bit view (R60). -/
theorem frameBits_byte (f : CmdFrame) {j : Nat} (hj : j < 6) :
    (frameBits f).extractLsb' (8 * (5 - j)) 8 = (frameBytes f)[j]'hj :=
  (frameBits_field f hj (i := 0) le_rfl).trans BitVec.extractLsb'_eq_self

/-- The remainder stands above the stop bit (R84). -/
theorem checkByte_rem (crc : Crc) : (checkByte crc).extractLsb' 1 7 = crc :=
  (BitVec.extractLsb'_append_eq_of_le le_rfl).trans BitVec.extractLsb'_eq_self

/-- The stop bit (R84). -/
theorem checkByte_stop (crc : Crc) : (checkByte crc).extractLsb' 0 1 = 1#1 :=
  (BitVec.extractLsb'_append_eq_of_add_le le_rfl).trans BitVec.extractLsb'_eq_self

/-- Settles O3: each field of the 48-bit view is a field of one byte of the frame. -/
theorem frameHasTheTabledLayout : Obligations.FrameHasTheTabledLayout := by
  intro idx arg f F
  have byte {j : Nat} (hj : j < 6) := frameBits_byte f hj
  refine ⟨List.ext_getElem rfl fun j hj _ => ?_,
    (frameBits_field f (j := 0) (i := 6) (by decide) le_rfl).trans (framingByte_marker idx),
    (frameBits_field f (j := 0) (i := 0) (by decide) (by decide)).trans (framingByte_index idx),
    byte (j := 1) (by decide), byte (j := 2) (by decide), byte (j := 3) (by decide),
    byte (j := 4) (by decide),
    (frameBits_field f (j := 5) (i := 1) (by decide) le_rfl).trans (checkByte_rem _),
    (frameBits_field f (j := 5) (i := 0) (by decide) (by decide)).trans (checkByte_stop _)⟩
  replace hj : j < 6 := hj
  interval_cases j <;> exact (byte (by decide)).symm

/-! ### Op codes -/

/-- An op code is one of R64's nine or unassigned (R69). -/
theorem op_cases (op : BitVec 4) :
    9 ≤ op.toNat ∨ op = 0x0#4 ∨ op = 0x1#4 ∨ op = 0x2#4 ∨ op = 0x3#4 ∨ op = 0x4#4 ∨ op = 0x5#4 ∨
      op = 0x6#4 ∨ op = 0x7#4 ∨ op = 0x8#4 := by
  revert op
  decide

/-- Codes 0x9..0xF spell no operation (R69). -/
theorem decode_unassigned {r : Request} (h : 9 ≤ r.op.toNat) : decode r = .unassigned r.op := by
  unfold decode
  split
  case h_10 => rfl
  all_goals omega

/-- Settles O1: the decoder's table. -/
theorem opCodesDecodeAsTabled : Obligations.OpCodesDecodeAsTabled := by
  intro idx arg n data
  exact ⟨rfl, rfl, rfl, rfl, rfl, rfl, rfl, rfl, rfl, fun _ h => decode_unassigned h⟩

/-- The decoder does not look at the fields an op code ignores (R66). -/
@[simp] theorem decode_readPart (r : Request) : decode r.readPart = decode r := by
  obtain ⟨op, idx, arg, n, data⟩ := r
  rcases op_cases op with h9 | rfl | rfl | rfl | rfl | rfl | rfl | rfl | rfl | rfl
  · let r : Request := ⟨op, idx, arg, n, data⟩
    exact (decode_unassigned (r := r.readPart) h9).trans (decode_unassigned (r := r) h9).symm
  all_goals rfl

/-- The decoder reads every operation back from its encoding (R64). -/
@[simp] theorem decode_encode (i : Instr) : decode (encode i) = .instr i := by
  cases i <;> rfl

/-- The part of a request that its operation reads is the operation's encoding (R66, R67). -/
theorem encode_eq_readPart_of_decode {r : Request} {i : Instr} (h : decode r = .instr i) :
    encode i = r.readPart := by
  obtain ⟨op, idx, arg, n, data⟩ := r
  rcases op_cases op with h9 | rfl | rfl | rfl | rfl | rfl | rfl | rfl | rfl | rfl
  · cases (decode_unassigned h9).symm.trans h
  all_goals
    obtain rfl := Decoded.instr.inj h
    rfl

/-- Settles O2: the decoder sees of a request the part it reads, which is the operation's encoding. -/
theorem decodeIsInverseOfEncode : Obligations.DecodeIsInverseOfEncode := by
  refine ⟨decode_encode, fun r i => ⟨encode_eq_readPart_of_decode, fun h => ?_⟩⟩
  calc decode r = decode r.readPart := (decode_readPart r).symm
    _ = decode (encode i) := by rw [h]
    _ = .instr i := decode_encode i

/-! ### Sentinels -/

/-- Settles O15: the reading operations send sentinels only, and a byte that is no sentinel is busy. -/
theorem readsSendOnlySentinels : Obligations.ReadsSendOnlySentinels := by
  refine ⟨fun p n i hi c hc b hb => ?_, fun b => by simp [busyOf, Config.sentinel]⟩
  suffices h : ∃ m, c = .transfer (sentinels m) ∨ c = .transferInPlace (sentinels m) by
    obtain ⟨m, rfl | rfl⟩ := h <;> exact List.eq_of_mem_replicate hb
  rcases hi with rfl | rfl | rfl | rfl | rfl | rfl
  · exact ⟨1, .inl (List.mem_singleton.mp hc)⟩
  · exact ⟨4, .inl (List.mem_singleton.mp hc)⟩
  · exact ⟨16, .inl (List.mem_singleton.mp hc)⟩
  · exact ⟨n, .inr (List.mem_singleton.mp hc)⟩
  · exact ⟨1, .inl (List.eq_of_mem_replicate hc)⟩
  · exact ⟨1, .inl (List.mem_singleton.mp hc)⟩

end Sys2Proof.Machine
end

section
/-! PROOFS. The CRC-7 generator (40_crc7.md R82 to R88): a register as its seven bits, the linearity of its update over GF(2), and what follows from it: the self-check, the byte-parallel equations and the table. -/

namespace Sys2Proof.Machine

/-! ### The CRC register as seven bits -/

/-- The bits of a register are those it was built from, bit 6 first. -/
@[simp] theorem remBits_crcOfBits (a6 a5 a4 a3 a2 a1 a0 : Bool) :
    remBits (crcOfBits a6 a5 a4 a3 a2 a1 a0) = [a6, a5, a4, a3, a2, a1, a0] := by
  revert a6 a5 a4 a3 a2 a1 a0
  decide

/-- A register is built from its own bits. -/
theorem crcOfBits_getLsbD (c : Crc) :
    crcOfBits (c.getLsbD 6) (c.getLsbD 5) (c.getLsbD 4) (c.getLsbD 3) (c.getLsbD 2) (c.getLsbD 1)
      (c.getLsbD 0) = c := by
  revert c
  decide

theorem exists_crcOfBits (c : Crc) :
    ∃ a6 a5 a4 a3 a2 a1 a0, c = crcOfBits a6 a5 a4 a3 a2 a1 a0 :=
  ⟨_, _, _, _, _, _, _, (crcOfBits_getLsbD c).symm⟩

/-- R82 bit by bit: every bit moves up, and the feedback `b ^^ a6` enters at x^3 and x^0. -/
theorem stepBit_crcOfBits (a6 a5 a4 a3 a2 a1 a0 b : Bool) :
    stepBit (crcOfBits a6 a5 a4 a3 a2 a1 a0) b =
      crcOfBits a5 a4 a3 (a2 ^^ (b ^^ a6)) a1 a0 (b ^^ a6) := by
  revert a6 a5 a4 a3 a2 a1 a0 b
  decide

theorem crcOfBits_xor (a6 a5 a4 a3 a2 a1 a0 e6 e5 e4 e3 e2 e1 e0 : Bool) :
    crcOfBits a6 a5 a4 a3 a2 a1 a0 ^^^ crcOfBits e6 e5 e4 e3 e2 e1 e0 =
      crcOfBits (a6 ^^ e6) (a5 ^^ e5) (a4 ^^ e4) (a3 ^^ e3) (a2 ^^ e2) (a1 ^^ e1) (a0 ^^ e0) := by
  simp only [crcOfBits, ← BitVec.ofBool_xor_ofBool, ← BitVec.xor_append]

/-- The bits of a byte made of a register and one bit below it. -/
theorem byteBits_append (c : Crc) (b : Bool) :
    byteBits (c ++ BitVec.ofBool b) = remBits c ++ [b] := by
  simp [byteBits, remBits, BitVec.getLsbD_append (x := c), -BitVec.getLsbD_eq_getElem]

theorem byteBits_xor (d e : Byte) :
    byteBits (d ^^^ e) = List.zipWith (· ^^ ·) (byteBits d) (byteBits e) := by
  simp [byteBits]

/-! ### The update is linear over GF(2) (R88) -/

theorem stepBit_xor (c c' : Crc) (b b' : Bool) :
    stepBit (c ^^^ c') (b ^^ b') = stepBit c b ^^^ stepBit c' b' := by
  obtain ⟨a6, a5, a4, a3, a2, a1, a0, rfl⟩ := exists_crcOfBits c
  obtain ⟨e6, e5, e4, e3, e2, e1, e0, rfl⟩ := exists_crcOfBits c'
  simp only [crcOfBits_xor, stepBit_crcOfBits]
  congr 1 <;> simp only [Bool.xor_left_comm, Bool.xor_comm]

/-- A step that respects xor, folded over two lists of equal length, respects it too. -/
theorem foldl_zipWith_xor {α : Type} {add : α → α → α} {step : Crc → α → Crc}
    (hstep : ∀ c c' a a', step (c ^^^ c') (add a a') = step c a ^^^ step c' a')
    (c c' : Crc) {s s' : List α} (h : s.length = s'.length) :
    (List.zipWith add s s').foldl step (c ^^^ c') = s.foldl step c ^^^ s'.foldl step c' := by
  induction s generalizing c c' s' with
  | nil => simp [List.length_eq_zero_iff.mp h.symm]
  | cons a s ih =>
    cases s' with
    | nil => simp at h
    | cons a' s' =>
      simpa only [List.zipWith_cons_cons, List.foldl_cons, hstep] using ih _ _ (Nat.succ.inj h)

theorem stepByte_xor (c c' : Crc) (d d' : Byte) :
    stepByte (c ^^^ c') (d ^^^ d') = stepByte c d ^^^ stepByte c' d' := by
  rw [stepByte, byteBits_xor]
  exact foldl_zipWith_xor stepBit_xor c c' rfl

/-- A zero byte leaves the zero register as it is (R88). -/
theorem crc7Rem_zero_cons (s : List Byte) : crc7Rem (0x00#8 :: s) = crc7Rem s :=
  congrArg (stepBytes · s) (show stepByte 0#7 0x00#8 = 0#7 by decide)

theorem crc7Rem_replicate_zero (n : Nat) : crc7Rem (List.replicate n 0x00#8) = 0x00#7 := by
  induction n with
  | zero => rfl
  | succ n ih => rw [List.replicate_succ, crc7Rem_zero_cons, ih]

theorem crc7Byte_replicate_zero (n : Nat) : crc7Byte (List.replicate n 0x00#8) = 0x01#8 := by
  rw [crc7Byte, crc7Rem_replicate_zero]
  rfl

/-- Settles O10: linearity from that of one byte, and the zero bytes. -/
theorem crcIsLinearAndSkipsLeadingZeros : Obligations.CrcIsLinearAndSkipsLeadingZeros :=
  ⟨fun _ _ h => foldl_zipWith_xor stepByte_xor 0#7 0#7 h, crc7Rem_zero_cons,
    fun n => ⟨crc7Rem_replicate_zero n, crc7Byte_replicate_zero n⟩⟩

/-! ### The check byte (R84, R87) -/

theorem checkByte_eq_or (c : Crc) : checkByte c = (c.setWidth 8 <<< 1) ||| 1#8 := by
  rw [checkByte, BitVec.append_def, BitVec.shiftLeftZeroExtend_eq]
  rfl

theorem checkByte_toNat (c : Crc) : (checkByte c).toNat = 2 * c.toNat + 1 := by
  rw [checkByte, BitVec.toNat_append, ← Nat.shiftLeft_add_eq_or_of_lt (by decide), Nat.shiftLeft_eq,
    Nat.mul_comm]
  rfl

/-- The CMD0 header (R84). -/
theorem crc7Byte_cmd0 : crc7Byte [0x40#8, 0x00#8, 0x00#8, 0x00#8, 0x00#8] = 0x95#8 := by
  decide +kernel

/-- The CMD8 header (R84). -/
theorem crc7Byte_cmd8 : crc7Byte [0x48#8, 0x00#8, 0x00#8, 0x01#8, 0xAA#8] = 0x87#8 := by
  decide +kernel

/-- Settles O7: the check byte is twice the remainder and one more. -/
theorem checkByteIsRemainderAndStopBit : Obligations.CheckByteIsRemainderAndStopBit := by
  refine ⟨fun s => ?_, crc7Byte_cmd0, crc7Byte_cmd8⟩
  have hval : (crc7Byte s).toNat = 2 * (crc7Rem s).toNat + 1 := checkByte_toNat _
  exact ⟨rfl, checkByte_eq_or _, by omega, by omega, by omega⟩

/-- A register that is fed its own bits meets no feedback and is shifted out. -/
theorem stepBits_remBits (c : Crc) : stepBits c (remBits c) = 0#7 := by
  obtain ⟨a6, a5, a4, a3, a2, a1, a0, rfl⟩ := exists_crcOfBits c
  simp only [remBits_crcOfBits, stepBits, List.foldl, stepBit_crcOfBits, Bool.xor_self,
    Bool.xor_false]
  rfl

/-- After its own bits, a register is where the zero register is. -/
theorem stepByte_append (c : Crc) (b : Bool) :
    stepByte c (c ++ BitVec.ofBool b) = stepBit 0#7 b := by
  rw [stepByte, byteBits_append, stepBits_append, stepBits_remBits]
  rfl

/-- Settles O9: the remainder shifts itself out, and the stop bit then enters the zero register. -/
theorem checkByteSelfCheck : Obligations.CheckByteSelfCheck :=
  fun _ => ⟨stepBits_remBits _, stepByte_append _ true⟩

/-! ### The byte-parallel forms (R85) -/

theorem stepByteParallel_eq_stepByte (c : Crc) (d : Byte) :
    stepByteParallel c d = stepByte c d := by
  conv_rhs => rw [← crcOfBits_getLsbD c]
  simp only [stepByteParallel, stepByte, stepBits, byteBits, List.foldl, stepBit_crcOfBits]
  congr 1 <;> simp only [Bool.xor_assoc, Bool.xor_comm, Bool.xor_left_comm]
  -- In bit 3 the first feedback enters twice and cancels.
  case e_b3 => simp

/-- By linearity, a byte enters the register `c` as that byte xor `c << 1` enters the zero register. -/
theorem stepByte_eq_stepByte_zero (c : Crc) (d : Byte) :
    stepByte c d = stepByte 0#7 ((c ++ 0#1 : Byte) ^^^ d) := by
  calc stepByte c d
      = stepByte (c ^^^ 0#7) ((c ++ 0#1) ^^^ ((c ++ 0#1) ^^^ d)) := by
        rw [← BitVec.xor_assoc, BitVec.xor_self, BitVec.zero_xor, BitVec.xor_zero]
    _ = stepByte c (c ++ 0#1) ^^^ stepByte 0#7 ((c ++ 0#1) ^^^ d) := stepByte_xor ..
    _ = 0#7 ^^^ stepByte 0#7 ((c ++ 0#1) ^^^ d) := congrArg (· ^^^ _) (stepByte_append c false)
    _ = stepByte 0#7 ((c ++ 0#1) ^^^ d) := BitVec.zero_xor

/-- The printed table is the table of one-byte remainders. -/
theorem crcTable_eq_map :
    crcTable = (List.range 256).map fun v => (crc7Rem [BitVec.ofNat 8 v]).toNat := by
  decide +kernel

theorem crcTable_getElem? (v : Byte) : crcTable[v.toNat]? = some (crc7Rem [v]).toNat := by
  rw [crcTable_eq_map, List.getElem?_map, List.getElem?_range v.isLt, Option.map_some,
    BitVec.ofNat_toNat, BitVec.setWidth_eq]

theorem stepByteTable_eq_stepByte (c : Crc) (d : Byte) : stepByteTable c d = stepByte c d := by
  rw [stepByteTable, List.getD_eq_getElem?_getD, crcTable_getElem?, Option.getD_some,
    BitVec.ofNat_toNat, BitVec.setWidth_eq, stepByte_eq_stepByte_zero]
  rfl

/-- Settles O8: the equations bit by bit, the table by linearity. -/
theorem byteParallelFormsAreBitSerial : Obligations.ByteParallelFormsAreBitSerial :=
  ⟨stepByteParallel_eq_stepByte, stepByteTable_eq_stepByte,
    by rw [crcTable_eq_map, List.length_map, List.length_range], crcTable_getElem?⟩

end Sys2Proof.Machine
end

section
/-! PROOFS. The algebraic reading of the CRC-7 generator (40_crc7.md R83): each bit step multiplies the register by x and reduces it modulo x^7 + x^3 + 1 over GF(2). -/

namespace Sys2Proof.Machine

open Polynomial

/-- A bit as an element of GF(2), as `bitsPoly` reads it. -/
def bitCoeff (b : Bool) : ZMod 2 :=
  if b then 1 else 0

theorem bitCoeff_xor (a b : Bool) : bitCoeff (a ^^ b) = bitCoeff a + bitCoeff b := by
  revert a b
  decide

@[simp] theorem bitsPoly_nil : bitsPoly [] = 0 := rfl

/-- One more bit at the low end multiplies by x. -/
theorem bitsPoly_append_singleton (bits : List Bool) (b : Bool) :
    bitsPoly (bits ++ [b]) = bitsPoly bits * X + C (bitCoeff b) := by
  rw [bitsPoly, List.foldl_append]
  rfl

/-- One more bit at the high end is a new highest power. -/
theorem bitsPoly_cons (b : Bool) (bits : List Bool) :
    bitsPoly (b :: bits) = C (bitCoeff b) * X ^ bits.length + bitsPoly bits := by
  induction bits using List.reverseRecOn with
  | nil => simp [bitsPoly, bitCoeff]
  | append_singleton bits e ih =>
    rw [← List.cons_append, bitsPoly_append_singleton, bitsPoly_append_singleton, ih,
      List.length_append, List.length_singleton]
    ring

theorem degree_bitsPoly_lt (bits : List Bool) : (bitsPoly bits).degree < bits.length := by
  induction bits with
  | nil => simp
  | cons b bits ih =>
    rw [bitsPoly_cons, List.length_cons]
    have hlt : (bits.length : WithBot ℕ) < ↑(bits.length + 1) := by exact_mod_cast Nat.lt_add_one _
    exact (degree_add_le _ _).trans_lt
      (max_lt ((degree_C_mul_X_pow_le _ _).trans_lt hlt) (ih.trans hlt))

theorem crcGenerator_monic : crcGenerator.Monic := by
  rw [crcGenerator, add_assoc]
  exact monic_X_pow_add (by compute_degree!)

theorem crcGenerator_degree : crcGenerator.degree = 7 := by
  rw [crcGenerator]
  compute_degree!

/-- A register is a remainder: its polynomial is of a lower degree than the generator. -/
theorem degree_remBits_lt (c : Crc) : (bitsPoly (remBits c)).degree < crcGenerator.degree := by
  rw [crcGenerator_degree]
  exact degree_bitsPoly_lt (remBits c)

/-- R82 over GF(2): a bit step is `c·x + b·x^7`, reduced by the feedback's multiple of the generator. -/
theorem crcGenerator_dvd_stepBit (c : Crc) (b : Bool) :
    crcGenerator ∣
      bitsPoly (remBits c) * X + C (bitCoeff b) * X ^ 7 - bitsPoly (remBits (stepBit c b)) := by
  obtain ⟨a6, a5, a4, a3, a2, a1, a0, rfl⟩ := exists_crcOfBits c
  refine ⟨C (bitCoeff (b ^^ a6)), ?_⟩
  have htwo : C (bitCoeff (b ^^ a6)) + C (bitCoeff (b ^^ a6)) = 0 := CharTwo.add_self_eq_zero _
  simp only [stepBit_crcOfBits, remBits_crcOfBits, bitsPoly_cons, bitsPoly_nil, List.length,
    crcGenerator, bitCoeff_xor, C_add] at htwo ⊢
  linear_combination (-X ^ 3 - 1) * htwo

/-- The register after a message differs from `M(x)·x^7` by a multiple of the generator. -/
theorem crcGenerator_dvd_stepBits (bits : List Bool) :
    crcGenerator ∣ bitsPoly bits * X ^ 7 - bitsPoly (remBits (stepBits 0#7 bits)) := by
  induction bits using List.reverseRecOn with
  | nil => simp [stepBits, remBits, bitsPoly]
  | append_singleton bits b ih =>
    have hstep := crcGenerator_dvd_stepBit (stepBits 0#7 bits) b
    rw [bitsPoly_append_singleton, stepBits_append]
    convert dvd_add (ih.mul_right X) hstep using 1
    simp only [stepBits, List.foldl]
    ring

/-- The CRC register takes the bytes of a sequence as their bits, one after the other (R83). -/
theorem stepBytes_eq_stepBits (c : Crc) (s : List Byte) :
    stepBytes c s = stepBits c (s.flatMap byteBits) := by
  induction s generalizing c with
  | nil => rfl
  | cons d s ih => rw [List.flatMap_cons, stepBits_append, ← ih]; rfl

/-- Settles O11: the register is congruent to `M(x)·x^7` modulo the generator, and a remainder. -/
theorem crcIsPolynomialRemainder : Obligations.CrcIsPolynomialRemainder := by
  intro s
  have hdvd := crcGenerator_dvd_stepBits (s.flatMap byteBits)
  rw [← stepBytes_eq_stepBits] at hdvd
  exact (modByMonic_eq_of_dvd_sub crcGenerator_monic hdvd).trans
    ((modByMonic_eq_self_iff crcGenerator_monic).mpr (degree_remBits_lt _))

end Sys2Proof.Machine
end

section
/-! PROOFS. The CRC7 operation (40_crc7.md R86): its finish, and the two steps from the presented request to the completion. -/

namespace Sys2Proof.Machine

/-- A length within the bound passes the check (R175). -/
theorem checkLength_eq_none {p : Params} {len : Nat}
    (h : ∀ m, p.maxDataLen = some m → len ≤ m) : p.checkLength len = none := by
  unfold Params.checkLength Params.fits
  cases hm : p.maxDataLen with
  | none => rfl
  | some m => simp [h m hm]

/-- A length over the bound does not (R175). -/
theorem checkLength_eq_some {p : Params} {len m : Nat} (hm : p.maxDataLen = some m)
    (hlen : m < len) : p.checkLength len = some (.oversizeBuffer len) := by
  simp [Params.checkLength, Params.fits, hm, hlen]

theorem decode_crc7 {r : Request} (h : r.op = 0x0#4) : decode r = .instr (.crc7 r.data) := by
  simp [decode, h]

/-- Settles O25: the input goes through a register that holds 0. -/
theorem crc7FinishGivesTheCheckByte : Obligations.Crc7FinishGivesTheCheckByte := by
  intro s data hp hc hcrc
  rw [exec_eq_operate, operate_finish hp hc, finishStep, finishCrc7, hcrc]
  rfl

/-- CRC7 takes two steps, acceptance and finish (R86; log 8). -/
theorem crc7_endsIn {s : State} {r : Request} {rest : List Request} (h : Presented r rest s)
    (hop : r.op = 0x0#4) (hlen : ∀ m, s.cfg.maxDataLen = some m → r.data.length ≤ m) :
    EndsIn 2 s (.ok ((crc7Byte r.data).setWidth 128) false []) [] s.answers rest := by
  have hd := decode_crc7 hop
  have haccept := step_presented (i := .crc7 r.data) h hd (checkLength_eq_none hlen)
  have hfinish := (step_running (s := s.accepted r rest (.crc7 r.data)) rfl h.released hd).trans
    (crc7FinishGivesTheCheckByte _ r.data rfl rfl rfl)
  refine ⟨_, (run_succ haccept).trans (run_succ hfinish), ?_⟩
  simp [State.observe, State.accepted, h.idle]

/-- Settles O36: acceptance and finish within the bound, the refusal over it, and the check bytes. -/
theorem crc7Operation : Obligations.Crc7Operation := by
  refine ⟨fun _ _ _ h hop hlen => crc7_endsIn h hop hlen, fun s r rest m h hop hm hlen => ?_,
    crc7Byte_replicate_zero 0, crc7Byte_replicate_zero, crc7Byte_cmd0⟩
  refine step_refused_of_refusalOf h (decode_crc7 hop) ?_
  simp [refusalOf, Instr.check, checkLength_eq_some hm hlen]

end Sys2Proof.Machine
end

section
/-! PROOFS. The command framer (41_command_framer.md): what a frame holds (R106) and what is read back from it (R107), the finish without a result (R104, R141, R149), and WRITE_CMD from the presented request to the completion. -/

namespace Sys2Proof.Machine

/-! ### The command frame -/

/-- Settles O4: the argument is its four bytes, and byte 0 carries the marker, whatever the index. -/
theorem commandFrameProperty : Obligations.CommandFrameProperty :=
  fun idx arg _ =>
    ⟨_, _, _, _, _, _, rfl, rfl, arg_eq_append arg, rfl, framingByte_marker idx⟩

/-- Masking out the marker gives the masked index back (R101, R107). -/
theorem framingByte_and_mask (idx : BitVec 8) : framingByte idx &&& 0x3F#8 = idx &&& 0x3F#8 := by
  have hmarker : Config.frameMarker &&& 0x3F#8 = 0#8 := rfl
  rw [framingByte, BitVec.and_or_distrib_right, hmarker, BitVec.zero_or, BitVec.and_assoc,
    BitVec.and_self]

/-- Byte 0 determines the masked index and nothing more (R101, R107). -/
theorem framingByte_eq_iff {idx idx' : BitVec 8} :
    framingByte idx = framingByte idx' ↔ idx &&& 0x3F#8 = idx' &&& 0x3F#8 := by
  constructor <;> intro h
  · rw [← framingByte_and_mask idx, h, framingByte_and_mask]
  · rw [framingByte, h, framingByte]

/-- The mask keeps the six bits of the index (R101). -/
theorem maskedIndex_index (idx : BitVec 8) :
    (idx &&& 0x3F#8).extractLsb' 0 6 = idx.extractLsb' 0 6 := by
  have hmask : (0x3F#8).extractLsb' 0 6 = BitVec.allOnes 6 := rfl
  rw [BitVec.extractLsb'_and, hmask, BitVec.and_allOnes]

/-- A frame is made from byte 0 and the argument (R103, R104). -/
theorem cmdFrame_eq_iff {idx idx' : BitVec 8} {arg arg' : Arg} :
    cmdFrame idx arg = cmdFrame idx' arg' ↔ framingByte idx = framingByte idx' ∧ arg = arg' := by
  constructor
  · intro h
    exact ⟨congrArg CmdFrame.f0 h, by simpa using congrArg frameArg h⟩
  · rintro ⟨hbyte, rfl⟩
    simp only [cmdFrame, hbyte]

/-- Settles O5: the six low bits of byte 0 are the index's, and the rest is read back as it went in. -/
theorem frameDeterminesIndexAndArgument : Obligations.FrameDeterminesIndexAndArgument := by
  refine ⟨fun idx arg => ⟨?_, frameArg_cmdFrame idx arg⟩, fun idx idx' arg arg' => ?_⟩
  · exact (framingByte_index idx).trans (maskedIndex_index idx).symm
  · rw [cmdFrame_eq_iff, framingByte_eq_iff]

/-! ### The finish without a result -/

/-- Settles O26: the three operations share the finish that presents OK and nothing else. -/
theorem writesAndFlushFinishWithoutResult : Obligations.WritesAndFlushFinishWithoutResult := by
  intro s i idx arg data hi hp hc
  rw [exec_eq_operate, operate_finish hp hc]
  rcases hi with rfl | rfl | rfl <;> rfl

/-! ### The steps of a RUNNING block -/

section
variable {s : State} {i : Instr} (hp : s.phase = .running) (hr : s.resetLine = .released)
  (hd : decode s.req = .instr i)
include hp hr hd

/-- A step that makes a call answered ok (R28). -/
theorem step_call_ok {c : LinkCall} {d : List Byte} {as : List LinkAnswer}
    (hc : s.calls[s.k]? = some c) (ha : s.answers = .ok d :: as) :
    step s = .next (s.receive c d (absorbOf i)) := by
  have hanswer : s.nextAnswer = .ok d := by rw [State.nextAnswer, ha, answerAt_cons]
  rw [step_running hp hr hd, exec_eq_operate, operate_call hp hc, linkCall_ok hanswer]

/-- A step that makes a call answered by an error (R28, R171). -/
theorem step_call_err {c : LinkCall} {e : LinkError} {n : Nat} {as : List LinkAnswer}
    (hc : s.calls[s.k]? = some c) (ha : s.answers = .err e n :: as) :
    step s = .next ((s.sendCall c n).complete (.linkErr e)) := by
  have hanswer : s.nextAnswer = .err e n := by rw [State.nextAnswer, ha, answerAt_cons]
  rw [step_running hp hr hd, exec_linkCall_err hp hc hanswer]

/-- A step with no call left to make (R29). -/
theorem step_finish (hc : s.calls[s.k]? = none) : step s = .next (finishStep i s) := by
  rw [step_running hp hr hd, exec_eq_operate, operate_finish hp hc]

end

/-! ### Operations that make one link call -/

section
variable {s : State} {r : Request} {rest : List Request} {i : Instr} {c : LinkCall}
  {as : List LinkAnswer} (h : Presented r rest s) (hd : decode r = .instr i)
  (hw : i.WellFormed s.cfg) (hs : script s.cfg i = [c])
include h hd hw hs

/-- One call that answers ok: acceptance, the call and the finish (R26, R28, R29; log 8). -/
theorem endsIn_of_one_call_ok {d : List Byte} (ha : s.answers = .ok d :: as) :
    EndsIn 3 s (finishOf i [callInbound s.traffic.length c d]) [sentWhole c] as rest := by
  have hcalls : (s.accepted r rest i).calls = [c] := hs
  have hcall : (s.accepted r rest i).calls[0]? = some c := by rw [hcalls]; rfl
  have hdone : (s.accepted r rest i).calls[1]? = none := by rw [hcalls]; rfl
  have hinv := runningInv_receive
    (runningInv_load (s := { s with req := r, requester := rest }) hw) hcall d
  have haccept := step_presented h hd hw
  have hreceive := step_call_ok (s := s.accepted r rest i) rfl h.released hd hcall ha
  have hfinish := step_finish (s := (s.accepted r rest i).receive c d (absorbOf i))
    rfl h.released hd hdone
  refine ⟨_, (run_succ haccept).trans ((run_succ hreceive).trans (run_succ hfinish)), ?_⟩
  refine (finishStep_observe hinv (List.getElem?_eq_none_iff.mp hdone)).trans ?_
  refine (State.receive_ended ..).trans ((State.accepted_ended h.idle ..).trans ?_)
  simp [ha]

/-- One call that fails: acceptance and the call (R26, R171; log 8). -/
theorem endsIn_of_one_call_err {e : LinkError} {n : Nat} (ha : s.answers = .err e n :: as) :
    EndsIn 2 s (.linkErr e) [sentPart c n] as rest := by
  have hcalls : (s.accepted r rest i).calls = [c] := hs
  have hcall : (s.accepted r rest i).calls[0]? = some c := by rw [hcalls]; rfl
  have haccept := step_presented h hd hw
  have hfail := step_call_err (s := s.accepted r rest i) rfl h.released hd hcall ha
  refine ⟨_, (run_succ haccept).trans (run_succ hfail), ?_⟩
  rw [State.sendCall_complete_observe, State.accepted_ended h.idle]
  simp [State.accepted, ha]

end

/-! ### WRITE_CMD -/

theorem decode_writeCmd {r : Request} (h : r.op = 0x1#4) :
    decode r = .instr (.writeCmd r.idx r.arg) := by
  simp [decode, h]

/-- Under `mask` every index passes the check, under `refuse` those below 64 (R174). -/
theorem checkIndex_eq_none {p : Params} {idx : BitVec 8} (h : p.oversize = .mask ∨ idx.toNat < 64) :
    p.checkIndex idx = none := by
  unfold Params.checkIndex
  split
  · rfl
  · next hrefuse =>
    have hlt : idx.toNat < 64 := h.resolve_left (by simp [hrefuse])
    exact if_pos hlt

/-- Under `refuse` an index of 64 or more does not pass (R174). -/
theorem checkIndex_eq_some {p : Params} {idx : BitVec 8} (hp : p.oversize = .refuse)
    (h : 64 ≤ idx.toNat) : p.checkIndex idx = some (.oversizeIndex idx) := by
  simp [Params.checkIndex, hp, h]

/-- Settles O37: one call, the write of the frame; its ok and its error, and the refusal of R174. -/
theorem writeCmdOperation : Obligations.WriteCmdOperation := by
  refine ⟨crc7Byte_cmd0, fun s r rest header h hop hheader => ?_⟩
  subst hheader
  have hd := decode_writeCmd hop
  refine ⟨fun hidx => ?_, fun hp hidx => ?_⟩
  · have hw : (Instr.writeCmd r.idx r.arg).WellFormed s.cfg := checkIndex_eq_none hidx
    exact ⟨fun _ _ ha => endsIn_of_one_call_ok h hd hw rfl ha,
      fun _ _ _ ha => endsIn_of_one_call_err h hd hw rfl ha⟩
  · refine step_refused_of_refusalOf h hd ?_
    simp [refusalOf, Instr.check, checkIndex_eq_some hp hidx]

end Sys2Proof.Machine
end

section
/-! PROOFS. The response deserializer (42_response_deserializer.md): the big-endian value of a byte sequence as a sum and as a bijection (R121 to R123), the finish of the read responses, and READ_R1, READ_R4 and READ_R16 from the presented request to the completion (R124, R126, R128). -/

namespace Sys2Proof.Machine

/-! ### The big-endian value of a sequence -/

/-- A sequence followed by another stands above it. -/
theorem be_append (s t : List Byte) : be (s ++ t) = be s * 2 ^ (8 * t.length) + be t := by
  induction s with
  | nil => simp [be]
  | cons b rest ih =>
    rw [List.cons_append, be, be, ih, List.length_append]
    ring

theorem be_lt (s : List Byte) : be s < 2 ^ (8 * s.length) := by
  induction s with
  | nil => simp [be]
  | cons b rest ih =>
    rw [be, List.length_cons, Nat.mul_succ, Nat.add_comm (8 * _), Nat.pow_add,
      Nat.mul_comm b.toNat]
    exact Nat.mul_add_lt_mul_of_lt_of_lt b.isLt ih

/-- R122: the sum form. -/
theorem be_eq_sum (s : List Byte) :
    be s = ∑ i : Fin s.length, (s.get i).toNat * 2 ^ (8 * (s.length - 1 - i)) := by
  induction s with
  | nil => rfl
  | cons b rest ih =>
    rw [be, ih]
    refine Eq.trans ?_ (Fin.sum_univ_succ _).symm
    simp [Nat.sub_sub, Nat.add_comm 1]

/-- A byte of a sequence stands above the bytes after it, with the bytes before it above it (R123). -/
theorem be_shiftRight_mod (pre : List Byte) (b : Byte) (post : List Byte) :
    be (pre ++ b :: post) >>> (8 * post.length) % 2 ^ 8 = b.toNat := by
  have hsplit : be (pre ++ b :: post) =
      2 ^ (8 * post.length) * (2 ^ 8 * be pre + b.toNat) + be post := by
    rw [be_append, be, List.length_cons]
    ring
  rw [Nat.shiftRight_eq_div_pow, hsplit, Nat.mul_add_div (Nat.two_pow_pos _),
    Nat.div_eq_of_lt (be_lt post), Nat.add_zero, Nat.mul_add_mod, Nat.mod_eq_of_lt b.isLt]

/-- Where the value fits the width, byte `i` is read back from its bits (R123). -/
theorem extractLsb'_ofNat_be {w n : Nat} {s : List Byte} (hlen : s.length = n) (hw : 8 * n ≤ w)
    (i : Fin s.length) :
    (BitVec.ofNat w (be s)).extractLsb' (8 * (n - 1 - i)) 8 = s.get i := by
  subst hlen
  have hfits : be s < 2 ^ w := (be_lt s).trans_le (Nat.pow_le_pow_right (by decide) hw)
  have hsplit : s.take i ++ s.get i :: s.drop (i + 1) = s := by simp
  have hbyte := be_shiftRight_mod (s.take i) (s.get i) (s.drop (i + 1))
  rw [hsplit, List.length_drop, Nat.add_comm, ← Nat.sub_sub] at hbyte
  apply BitVec.eq_of_toNat_eq
  rw [BitVec.extractLsb'_toNat, BitVec.toNat_ofNat, Nat.mod_eq_of_lt hfits, hbyte]

theorem be_injective {s t : List Byte} (hlen : s.length = t.length) (h : be s = be t) : s = t := by
  refine List.ext_get hlen fun i hs ht => ?_
  rw [← extractLsb'_ofNat_be hlen le_rfl, ← extractLsb'_ofNat_be rfl le_rfl, h]

/-- Every value of `n` bytes is that of some `n` bytes: its top byte, then those of the rest. -/
theorem exists_be_eq (n v : Nat) (h : v < 2 ^ (8 * n)) : ∃ s : List Byte, s.length = n ∧ be s = v := by
  induction n generalizing v with
  | zero => exact ⟨[], rfl, by simpa [be, eq_comm] using h⟩
  | succ n ih =>
    obtain ⟨rest, rfl, hrest⟩ := ih (v % 2 ^ (8 * n)) (Nat.mod_lt _ (Nat.two_pow_pos _))
    have htop : v / 2 ^ (8 * rest.length) < 2 ^ 8 :=
      Nat.div_lt_of_lt_mul (by rwa [← Nat.pow_add])
    refine ⟨BitVec.ofNat 8 (v / 2 ^ (8 * rest.length)) :: rest, rfl, ?_⟩
    rw [be, hrest, BitVec.toNat_ofNat, Nat.mod_eq_of_lt htop, Nat.div_add_mod']

/-- The value of at most 16 bytes fits the accumulator (R121). -/
theorem ofNat_be_toNat {s : List Byte} (h : s.length ≤ 16) :
    (BitVec.ofNat 128 (be s)).toNat = be s := by
  rw [BitVec.toNat_ofNat]
  exact Nat.mod_eq_of_lt ((be_lt s).trans_le (Nat.pow_le_pow_right (by decide) (by omega)))

/-- Settles O12: the accumulator is the value modulo 2^128, which at most 16 bytes do not reach. -/
theorem accumulatorHoldsBigEndianValue : Obligations.AccumulatorHoldsBigEndianValue :=
  ⟨fun s h => ⟨accBytes_zero s, by rw [accBytes_zero, ofNat_be_toNat h]⟩, be_eq_sum⟩

/-- Settles O13: the bytes read back make the value injective, and its own bytes make it onto. -/
theorem bigEndianIsBijective : Obligations.BigEndianIsBijective :=
  ⟨fun _ i => (extractLsb'_ofNat_be rfl le_rfl i).symm, be_lt, fun _ _ => be_injective, exists_be_eq⟩

/-! ### The finish of a read response -/

/-- The finish of a read response presents the big-endian value of the inbound bytes (R124, R126,
R128). -/
theorem RunningInv.finishStep_eq_of_isReadResponse {i : Instr} {s : State} (h : RunningInv i s)
    (hi : isReadResponse i = true) :
    finishStep i s = s.complete (.ok (BitVec.ofNat 128 (be s.inb.flatten)) false []) := by
  have hacc : s.acc = BitVec.ofNat 128 (be s.inb.flatten) := by
    rw [h.acc_eq, if_pos hi, accBytes_zero]
  have hfin : finishStep i = finishResponse := by
    cases i with
    | readR1 | readR4 | readR16 => rfl
    | _ => cases hi
  rw [hfin, finishResponse, hacc, State.completeOk_eq]

/-- With its one call made, an operation holds the one sequence that the call returned (R28, R47). -/
theorem RunningInv.inb_of_one_call {i : Instr} {s : State} {c : LinkCall} (h : RunningInv i s)
    (hk : s.calls.length ≤ s.k) (hs : script s.cfg i = [c]) :
    ∃ bytes, s.inb = [bytes] ∧ bytes.length = callInLen c := by
  have hlens := h.inb_lengths hk
  rw [hs, List.map_singleton] at hlens
  exact List.map_eq_singleton_iff.mp hlens

/-- Settles O27: one exchange of `n` sentinels returned `n` bytes, and the accumulator holds their
value. -/
theorem responsesFinishWithBigEndianValue : Obligations.ResponsesFinishWithBigEndianValue := by
  intro s i n hi hp hinv hk
  obtain ⟨hresp, hs⟩ : isReadResponse i = true ∧ script s.cfg i = [.transfer (sentinels n)] := by
    obtain ⟨rfl, rfl⟩ | ⟨rfl, rfl⟩ | ⟨rfl, rfl⟩ := hi <;> exact ⟨rfl, rfl⟩
  obtain ⟨bytes, hinb, hlen⟩ := hinv.inb_of_one_call hk.ge hs
  refine ⟨bytes, hinb, hlen.trans List.length_replicate, ?_⟩
  have hfin := hinv.finishStep_eq_of_isReadResponse hresp
  rw [hinb, List.flatten_singleton] at hfin
  rw [exec_eq_operate, operate_finish hp (List.getElem?_eq_none hk.ge), hfin]
  rfl

/-! ### READ_R1, READ_R4 and READ_R16 -/

/-- A read response meets no check (R176). -/
theorem wellFormed_of_isReadResponse {i : Instr} (hi : isReadResponse i = true) (p : Params) :
    i.WellFormed p := by
  cases i with
  | readR1 | readR4 | readR16 => rfl
  | _ => cases hi

theorem finishOf_of_isReadResponse {ε : Type} {i : Instr} (hi : isReadResponse i = true)
    (ins : List (List Byte)) :
    finishOf (ε := ε) i ins = .ok (BitVec.ofNat 128 (be ins.flatten)) false [] := by
  cases i with
  | readR1 | readR4 | readR16 => rfl
  | _ => cases hi

/-- A transfer returns what the card drives, where that is as many bytes as it sends (R47). -/
theorem callInbound_transfer (callNo : Nat) {out driven : List Byte}
    (h : driven.length = out.length) : callInbound callNo (.transfer out) driven = driven := by
  rw [callInbound, callInLen, ← h, inboundFill_exact]

section
variable {s : State} {r : Request} {rest : List Request} {i : Instr} {out : List Byte}
  {as : List LinkAnswer} (h : Presented r rest s) (hd : decode r = .instr i)
  (hi : isReadResponse i = true) (hs : script s.cfg i = [.transfer out])
include h hd hi hs

/-- A read response whose exchange the card answers ends with the big-endian value (R124, R126, R128). -/
theorem readResponse_endsIn_ok {bytes : List Byte} (hlen : bytes.length = out.length)
    (ha : s.answers = .ok bytes :: as) :
    EndsIn 3 s (.ok (BitVec.ofNat 128 (be bytes)) false []) [sentWhole (.transfer out)] as rest := by
  have hends := endsIn_of_one_call_ok h hd (wellFormed_of_isReadResponse hi _) hs ha
  rwa [finishOf_of_isReadResponse hi, List.flatten_singleton, callInbound_transfer _ hlen] at hends

/-- A read response whose exchange fails ends with the link's error (R171). -/
theorem readResponse_endsIn_err {e : LinkError} {n : Nat} (ha : s.answers = .err e n :: as) :
    EndsIn 2 s (.linkErr e) [sentPart (.transfer out) n] as rest :=
  endsIn_of_one_call_err h hd (wellFormed_of_isReadResponse hi _) hs ha

end

theorem decode_readR1 {r : Request} (h : r.op = 0x2#4) : decode r = .instr .readR1 := by
  simp [decode, h]

theorem decode_readR4 {r : Request} (h : r.op = 0x3#4) : decode r = .instr .readR4 := by
  simp [decode, h]

theorem decode_readR16 {r : Request} (h : r.op = 0x4#4) : decode r = .instr .readR16 := by
  simp [decode, h]

/-- A byte below a bit vector (R42). -/
theorem toNat_append_byte {w : Nat} (x : BitVec w) (b : Byte) :
    (x ++ b).toNat = x.toNat * 2 ^ 8 + b.toNat := by
  rw [BitVec.toNat_append, ← Nat.shiftLeft_add_eq_or_of_lt b.isLt, Nat.shiftLeft_eq]

/-- One byte is its own value, zero-extended (R124). -/
theorem ofNat_be_one (b : Byte) : BitVec.ofNat 128 (be [b]) = b.setWidth 128 := by
  rw [← BitVec.ofNat_toNat]
  simp [be]

/-- Four bytes are the value of their concatenation, zero-extended (R126). -/
theorem ofNat_be_four (b0 b1 b2 b3 : Byte) :
    BitVec.ofNat 128 (be [b0, b1, b2, b3]) = (b0 ++ b1 ++ b2 ++ b3).setWidth 128 := by
  have hval : be [b0, b1, b2, b3] = (b0 ++ b1 ++ b2 ++ b3).toNat := by
    simp only [be, List.length, toNat_append_byte]
    ring
  rw [hval, BitVec.ofNat_toNat]

/-- Settles O38: one exchange of one sentinel; its ok and its error. -/
theorem readR1Operation : Obligations.ReadR1Operation := by
  intro s r rest h hop
  have hd := decode_readR1 hop
  refine ⟨fun b0 as ha => ?_, fun e n as ha => readResponse_endsIn_err h hd rfl rfl ha⟩
  rw [← ofNat_be_one]
  exact readResponse_endsIn_ok h hd rfl rfl rfl ha

/-- Settles O39: one exchange of four sentinels; its ok and its error. -/
theorem readR4Operation : Obligations.ReadR4Operation := by
  intro s r rest h hop
  have hd := decode_readR4 hop
  refine ⟨fun b0 b1 b2 b3 as ha => ?_, fun e n as ha => readResponse_endsIn_err h hd rfl rfl ha⟩
  rw [← ofNat_be_four]
  exact readResponse_endsIn_ok h hd rfl rfl rfl ha

/-- Settles O40: one exchange of sixteen sentinels; its ok, each byte read back, and its error. -/
theorem readR16Operation : Obligations.ReadR16Operation := by
  intro s r rest h hop
  have hd := decode_readR16 hop
  refine ⟨fun bytes as hlen ha => ?_, fun e n as ha => readResponse_endsIn_err h hd rfl rfl ha⟩
  refine ⟨_, readResponse_endsIn_ok h hd rfl rfl hlen ha, ofNat_be_toNat hlen.le,
    extractLsb'_ofNat_be hlen le_rfl⟩

end Sys2Proof.Machine
end

section
/-! PROOFS. The auxiliary link operations (43_link_operations.md): the finishes of READ_DATA (R145) and IS_BUSY (R153), a script of any length run call by call, and WRITE_DATA, READ_DATA, FLUSH and IS_BUSY from the presented request to the completion (R141 to R153). -/

namespace Sys2Proof.Machine

/-! ### The finishes of READ_DATA and IS_BUSY -/

/-- With every call made, a step of a RUNNING operation is its finish (R29). -/
theorem exec_finish {i : Instr} {s : State} (hp : s.phase = .running) (hk : s.k = s.calls.length) :
    exec i s = .next (finishStep i s) := by
  rw [exec_eq_operate, operate_finish hp (List.getElem?_eq_none hk.ge)]

/-- The inbound bytes fill the READ_DATA buffer (R145). -/
theorem finishReadData_of_inb {n : Nat} {s : State} {bytes : List Byte} (hinb : s.inb = [bytes])
    (hlen : bytes.length = n) : finishReadData n s = s.complete (.ok 0#128 false bytes) := by
  rw [finishReadData, hinb, List.flatten_singleton, readBuffer_eq n bytes hlen, State.completeOk_eq]

/-- Settles O28: the one exchange of `n` sentinels returned `n` bytes, which fill the buffer. -/
theorem readDataFinishesWithTheInboundBytes : Obligations.ReadDataFinishesWithTheInboundBytes := by
  intro s n hp hinv hk
  obtain ⟨bytes, hinb, hlen⟩ := hinv.inb_of_one_call hk.ge rfl
  have hn : bytes.length = n := hlen.trans List.length_replicate
  exact ⟨bytes, hinb, hn,
    (exec_finish hp hk).trans (congrArg Host.Outcome.next (finishReadData_of_inb hinb hn))⟩

/-- With one byte sampled, the busy bit says whether that byte is another than the sentinel (R153). -/
theorem busyFlag_singleton (b : Byte) : busyFlag [[b]] = decide (b ≠ 0xFF#8) :=
  (decide_not (p := b = 0xFF#8)).symm

theorem finishIsBusy_of_inb {s : State} {b : Byte} (hinb : s.inb = [[b]]) :
    finishIsBusy s = s.complete (.ok 0#128 (decide (b ≠ 0xFF#8)) []) := by
  rw [finishIsBusy, hinb, busyFlag_singleton, State.completeOk_eq]

/-- Settles O29: the one exchange of one sentinel returned the sampled byte. -/
theorem isBusyFinishesWithTheBusyBit : Obligations.IsBusyFinishesWithTheBusyBit := by
  intro s hp hinv hk
  obtain ⟨bytes, hinb, hlen⟩ := hinv.inb_of_one_call hk.ge rfl
  obtain ⟨b, rfl⟩ := List.length_eq_one_iff.mp hlen
  exact ⟨b, hinb,
    (exec_finish hp hk).trans (congrArg Host.Outcome.next (finishIsBusy_of_inb hinb))⟩

/-! ### A script of any length, call by call -/

/-- Operation `i` is RUNNING and out of reset, with the calls `left` still to make (R23, R28). -/
structure RunningWith (i : Instr) (left : List LinkCall) (s : State) : Prop where
  phase    : s.phase = .running
  released : s.resetLine = .released
  decoded  : decode s.req = .instr i
  inv      : RunningInv i s
  left_eq  : s.calls.drop s.k = left

section
variable {i : Instr} {c : LinkCall} {left : List LinkCall} {s : State}

/-- The first call left is the next one made. -/
theorem RunningWith.next_call (h : RunningWith i (c :: left) s) : s.calls[s.k]? = some c := by
  rw [← List.head?_drop, h.left_eq, List.head?_cons]

/-- With no call left, every call is made. -/
theorem RunningWith.all_made (h : RunningWith i [] s) : s.calls.length ≤ s.k :=
  List.drop_eq_nil_iff.mp h.left_eq

/-- A call that answers ok is no longer left (R28). -/
theorem RunningWith.receive (h : RunningWith i (c :: left) s) (d : List Byte) :
    RunningWith i left (s.receive c d (absorbOf i)) where
  phase := h.phase
  released := h.released
  decoded := h.decoded
  inv := runningInv_receive h.inv h.next_call d
  left_eq := by
    rw [State.receive_calls, State.receive_k, ← List.tail_drop, h.left_eq, List.tail_cons]

end

/-- Right after acceptance the whole script is left (R26). -/
theorem runningWith_accepted {s : State} {r : Request} {rest : List Request} {i : Instr}
    (h : Presented r rest s) (hd : decode r = .instr i) (hw : i.WellFormed s.cfg) :
    RunningWith i (script s.cfg i) (s.accepted r rest i) where
  phase := rfl
  released := h.released
  decoded := hd
  inv := runningInv_load (s := { s with req := r, requester := rest }) hw
  left_eq := rfl

/-- Calls that all answer ok take a step each and leave the operation RUNNING with the calls after them,
whatever comes in; seen from the operation's end, they stand in front of the calls made later (R28). -/
theorem run_calls_ok {i : Instr} {made left : List LinkCall} {driven : List (List Byte)}
    {as : List LinkAnswer} {s : State} (h : RunningWith i (made ++ left) s)
    (hlen : driven.length = made.length) (ha : s.answers = driven.map .ok ++ as) :
    ∃ t, run made.length s = .next t ∧ RunningWith i left t ∧ t.answers = as ∧
      ∀ c events answers, t.ended c events answers = s.ended c (made.map sentWhole ++ events) answers := by
  induction made generalizing s driven with
  | nil =>
    obtain rfl := List.length_eq_zero_iff.mp hlen
    exact ⟨s, rfl, h, ha, fun _ _ _ => rfl⟩
  | cons call made ih =>
    obtain ⟨d, driven, rfl⟩ := List.exists_cons_of_length_eq_add_one hlen
    have hstep := step_call_ok h.phase h.released h.decoded h.next_call ha
    obtain ⟨t, hrun, ht, hans, hended⟩ := ih (h.receive d) (Nat.succ.inj hlen)
      (congrArg List.tail ha)
    refine ⟨t, (run_succ hstep).trans hrun, ht, hans, fun c events answers => ?_⟩
    rw [hended, State.receive_ended]
    rfl

section
variable {s : State} {r : Request} {rest : List Request} {i : Instr} {driven : List (List Byte)}
  {as : List LinkAnswer} (h : Presented r rest s) (hd : decode r = .instr i)
  (hw : i.WellFormed s.cfg)
include h hd hw

/-- An operation all of whose calls answer ok takes a step for each of them, and the acceptance and the
finish (R26, R28, R29; log 8). -/
theorem endsIn_of_all_calls_ok (hlen : driven.length = (script s.cfg i).length)
    (ha : s.answers = driven.map .ok ++ as) :
    ∃ ins, EndsIn ((script s.cfg i).length + 2) s (finishOf i ins)
      ((script s.cfg i).map sentWhole) as rest := by
  have haccepted : RunningWith i (script s.cfg i ++ []) (s.accepted r rest i) := by
    rw [List.append_nil]
    exact runningWith_accepted h hd hw
  obtain ⟨t, hrun, ht, rfl, hended⟩ := run_calls_ok haccepted hlen ha
  have hfinish := step_finish ht.phase ht.released ht.decoded (List.getElem?_eq_none ht.all_made)
  refine ⟨t.inb, finishStep i t,
    (run_succ (step_presented h hd hw)).trans ((run_add hrun).trans (run_succ hfinish)), ?_⟩
  rw [finishStep_observe ht.inv ht.all_made, hended, List.append_nil, State.accepted_ended h.idle]

/-- An operation one of whose calls fails takes a step for each call before it, the acceptance and the
failing call (R26, R28, R171; log 8). -/
theorem endsIn_of_calls_ok_then_err {made left : List LinkCall} {c : LinkCall} {e : LinkError} {n : Nat}
    (hs : script s.cfg i = made ++ c :: left) (hlen : driven.length = made.length)
    (ha : s.answers = driven.map .ok ++ .err e n :: as) :
    EndsIn (made.length + 2) s (.linkErr e) (made.map sentWhole ++ [sentPart c n]) as rest := by
  have haccepted : RunningWith i (made ++ c :: left) (s.accepted r rest i) :=
    hs ▸ runningWith_accepted h hd hw
  obtain ⟨t, hrun, ht, hans, hended⟩ := run_calls_ok haccepted hlen ha
  have hfail := step_call_err ht.phase ht.released ht.decoded ht.next_call hans
  refine ⟨_, (run_succ (step_presented h hd hw)).trans ((run_add hrun).trans (run_succ hfail)), ?_⟩
  rw [State.sendCall_complete_observe, hended, State.accepted_ended h.idle, hans, List.tail_cons]

end

/-! ### WRITE_DATA -/

theorem decode_writeData {r : Request} (h : r.op = 0x5#4) :
    decode r = .instr (.writeData r.data) := by
  simp [decode, h]

/-- Settles O41: one call, the write of the data; its ok and its error. -/
theorem writeDataOperation : Obligations.WriteDataOperation := by
  intro s r rest h hop hbound
  have hd := decode_writeData hop
  have hw : (Instr.writeData r.data).WellFormed s.cfg := checkLength_eq_none hbound
  exact ⟨fun _ _ ha => endsIn_of_one_call_ok h hd hw rfl ha,
    fun _ _ _ ha => endsIn_of_one_call_err h hd hw rfl ha⟩

/-! ### READ_DATA -/

theorem decode_readData {r : Request} (h : r.op = 0x6#4) : decode r = .instr (.readData r.n) := by
  simp [decode, h]

/-- The in-place transfer returns what the other one does (R47, R49). -/
theorem callInbound_transferInPlace (callNo : Nat) {out driven : List Byte}
    (h : driven.length = out.length) :
    callInbound callNo (.transferInPlace out) driven = driven :=
  callInbound_transfer callNo h

/-- Settles O42: one call, the in-place transfer of `n` sentinels; its ok, which brings the result in,
and its error. -/
theorem readDataOperation : Obligations.ReadDataOperation := by
  intro s r rest h hop hbound
  have hd := decode_readData hop
  have hw : (Instr.readData r.n).WellFormed s.cfg := checkLength_eq_none hbound
  refine ⟨fun bytes as hlen ha => ?_, fun _ _ _ ha => endsIn_of_one_call_err h hd hw rfl ha⟩
  have hends := endsIn_of_one_call_ok h hd hw rfl ha
  have hout : bytes.length = (sentinels r.n).length := hlen.trans List.length_replicate.symm
  rwa [callInbound_transferInPlace _ hout, finishOf, List.flatten_singleton] at hends

/-! ### FLUSH -/

theorem decode_flush {r : Request} (h : r.op = 0x7#4) : decode r = .instr .flush := by
  simp [decode, h]

/-- The exchange that FLUSH repeats (R148). -/
abbrev flushCall : LinkCall := .transfer [0xFF#8]

theorem script_flush (p : Params) : script p .flush = List.replicate p.flushCount flushCall := rfl

/-- Settles O43: FLUSH_COUNT equal calls; all of them ok, or the `j`-th one failing. -/
theorem flushOperation : Obligations.FlushOperation := by
  refine ⟨fun s r rest h hop => ?_, rfl⟩
  have hd := decode_flush hop
  have hw : Instr.flush.WellFormed s.cfg := rfl
  have hscript := script_flush s.cfg
  refine ⟨fun driven as hlen ha => ?_, fun j driven e n as h1 hj hlen ha => ?_⟩
  · have hcount : (script s.cfg .flush).length = s.cfg.flushCount := List.length_replicate
    obtain ⟨ins, hends⟩ := endsIn_of_all_calls_ok h hd hw (hlen.trans hcount.symm) ha
    rwa [hcount, hscript, List.map_replicate] at hends
  · obtain ⟨k, rfl⟩ := Nat.exists_eq_add_of_le' h1
    have hsplit : script s.cfg .flush = List.replicate k flushCall ++
        flushCall :: List.replicate (s.cfg.flushCount - (k + 1)) flushCall := by
      rw [hscript, ← List.replicate_succ, ← List.replicate_add]
      congr 1
      omega
    have hends := endsIn_of_calls_ok_then_err h hd hw hsplit
      (hlen.trans List.length_replicate.symm) ha
    rwa [List.length_replicate, List.map_replicate] at hends

/-! ### IS_BUSY -/

theorem decode_isBusy {r : Request} (h : r.op = 0x8#4) : decode r = .instr .isBusy := by
  simp [decode, h]

/-- Settles O44: one call, the sample; its ok, which brings the busy bit, and its error. -/
theorem isBusyOperation : Obligations.IsBusyOperation := by
  intro s r rest h hop
  have hd := decode_isBusy hop
  have hw : Instr.isBusy.WellFormed s.cfg := rfl
  refine ⟨fun b0 as ha => ?_, fun _ _ _ ha => endsIn_of_one_call_err h hd hw rfl ha⟩
  have hbusy : decide (b0 ≠ 0xFF#8) = if b0 = 0xFF#8 then false else true := by simp
  have hends := endsIn_of_one_call_ok h hd hw rfl ha
  have hout : [b0].length = (sentinels 1).length := rfl
  rw [callInbound_transfer _ hout, finishOf, busyFlag_singleton, hbusy] at hends
  exact hends

end Sys2Proof.Machine
end

section
/-! PROOFS. The exceptions (60_exceptions.md): a link error ends the operation (R171), the requests that are refused (R173 to R175), what one step can add (R178, R179), and a block that holds still (R188). -/

namespace Sys2Proof.Machine

/-! ### A link error -/

/-- Settles O23: the failing call is sent and LINK_ERR presented, whichever the operation. -/
theorem linkErrorEndsTheOperation : Obligations.LinkErrorEndsTheOperation :=
  fun _ _ _ _ _ hp hc ha => exec_linkCall_err hp hc ha

/-! ### What one step can add -/

/-- Abandoning an operation leaves at most the call at `k` on the link (R191). -/
theorem abandonCall_cases (p : Option Nat) (s : State) :
    s.abandonCall p = s ∨ ∃ c n, s.calls[s.k]? = some c ∧ s.abandonCall p = s.sendCall c n := by
  unfold State.abandonCall
  split
  · next c n _ hc => exact .inr ⟨c, n, hc, rfl⟩
  · exact .inl rfl

/-- What a step adds besides taking a request off the port: at most one link call, the one at `k`, and
at most one completion, on the way from RUNNING to IDLE (R28, R31, R178). -/
structure AddsAtMostOne (s t : State) : Prop where
  cfg : t.cfg = s.cfg
  traffic : t.traffic = s.traffic ∨
    ∃ c n, s.calls[s.k]? = some c ∧ t.traffic = s.traffic ++ [sentPart c n]
  completions : t.completions = s.completions ∨
    (s.phase = .running ∧ t.phase = .idle ∧ ∃ c, t.completions = s.completions ++ [c])
  answers : t.answers = s.answers ∨ t.answers = s.answers.tail

/-- Reset adds at most the call it interrupts, and no completion (R191). -/
theorem blockReset_addsAtMostOne (p : Option Nat) (s : State) :
    AddsAtMostOne s (s.blockReset p) := by
  unfold State.blockReset
  obtain hleft | ⟨c, n, hc, hleft⟩ := abandonCall_cases p s <;> rw [hleft]
  · exact ⟨rfl, .inl rfl, .inl rfl, .inl rfl⟩
  · exact ⟨rfl, .inr ⟨c, n, hc, rfl⟩, .inl rfl, .inr rfl⟩

/-- The requester is not reset (R191). -/
theorem State.blockReset_requester (p : Option Nat) (s : State) :
    (s.blockReset p).requester = s.requester := by
  obtain hleft | ⟨c, n, -, hleft⟩ := abandonCall_cases p s <;>
    simp only [State.blockReset, hleft, State.sendCall_requester]

/-- One step of an operation adds a call, or a completion, or both when the call fails. -/
theorem exec_addsAtMostOne {i : Instr} {s t : State} (h : exec i s = .next t) :
    AddsAtMostOne s t := by
  obtain ⟨-, -, rfl⟩ | ⟨c, d, -, hc, -, rfl⟩ | ⟨c, e, n, hp, hc, -, rfl⟩ | ⟨hp, -, rfl⟩ :=
    exec_next_cases h
  · exact ⟨rfl, .inl rfl, .inl rfl, .inl rfl⟩
  · exact ⟨rfl, .inr ⟨c, (callOut c).length, hc, rfl⟩, .inl rfl, .inr rfl⟩
  · exact ⟨rfl, .inr ⟨c, n, hc, rfl⟩, .inr ⟨hp, rfl, _, rfl⟩, .inr rfl⟩
  · obtain ⟨c, crc, hfin, -⟩ := finishStep_eq i s
    rw [hfin]
    exact ⟨rfl, .inl rfl, .inr ⟨hp, rfl, c, rfl⟩, .inl rfl⟩

/-- At IDLE an operation that is not refused is RUNNING after its step (R26). -/
theorem exec_idle_phase {i : Instr} {s t : State} (h : exec i s = .next t) (hp : s.phase = .idle) :
    t.phase = .running := by
  obtain ⟨-, -, rfl⟩ | ⟨-, -, hrun, -⟩ | ⟨-, -, -, hrun, -⟩ | ⟨hrun, -⟩ := exec_next_cases h
  · rfl
  all_goals cases hp.symm.trans hrun

/-- Settles O31, by what `step` can do: reset, hold still, accept, or go on with the operation. -/
theorem stepAddsAtMostOneCallAndOneCompletion :
    Obligations.StepAddsAtMostOneCallAndOneCompletion := by
  intro s t h
  obtain ⟨p, -, rfl⟩ | ⟨-, -, -, rfl⟩ | ⟨r, rest, i, hpres, -, hexec⟩ | ⟨i, -, -, -, hexec⟩ :=
    step_next_cases h
  · obtain ⟨hcfg, htraffic, hcompletions, hanswers⟩ := blockReset_addsAtMostOne p s
    exact ⟨hcfg, htraffic, hcompletions, hanswers, .inl (State.blockReset_requester p s)⟩
  · exact ⟨rfl, .inl rfl, .inl rfl, .inl rfl, .inl rfl⟩
  · obtain ⟨hcfg, htraffic, hcompletions, hanswers⟩ := exec_addsAtMostOne hexec
    obtain ⟨hreq, hport, -⟩ := execFrame _ t i hexec
    refine ⟨hcfg, htraffic, hcompletions, hanswers,
      .inr ⟨hpres.idle, exec_idle_phase hexec hpres.idle, ?_⟩⟩
    rw [hreq, hport, hpres.requester]
  · obtain ⟨hcfg, htraffic, hcompletions, hanswers⟩ := exec_addsAtMostOne hexec
    obtain ⟨-, hport, -⟩ := execFrame s t i hexec
    exact ⟨hcfg, htraffic, hcompletions, hanswers, .inl hport⟩

/-! ### The requests that are refused -/

/-- Settles O32: such a code decodes to no operation. -/
theorem unassignedOpCodesAreRefused : Obligations.UnassignedOpCodesAreRefused :=
  fun _ _ _ h hop => step_refused_of_unassigned h (decode_unassigned hop)

/-- At IDLE a well-formed operation is accepted (R26). -/
theorem exec_accept {i : Instr} {s : State} (hp : s.phase = .idle) (hw : i.WellFormed s.cfg) :
    exec i s = .next (s.load (script s.cfg i) (frameBuffer i)) := by
  rw [exec_eq_operate, operate_accept hp hw]

/-- At IDLE an operation that meets a refusal is refused (R174, R175). -/
theorem exec_refuse {i : Instr} {s : State} {q : Refusal} (hp : s.phase = .idle)
    (hq : refusalOf s.cfg i = some q) : exec i s = .refused q := by
  rw [exec_eq_operate, operate_refuse hp hq]

/-- A frame is that of the masked index (R101). -/
theorem cmdFrame_mask (idx : BitVec 8) (arg : Arg) :
    cmdFrame (idx &&& 0x3F#8) arg = cmdFrame idx arg := by
  rw [cmdFrame_eq_iff, framingByte_eq_iff, BitVec.and_assoc, BitVec.and_self]
  exact ⟨rfl, rfl⟩

/-- Settles O33: the check lets every index pass under `mask`, and none of these under `refuse`. -/
theorem oversizeIndexFollowsThePolicy : Obligations.OversizeIndexFollowsThePolicy := by
  intro s idx arg hp hidx
  refine ⟨fun hmask => ?_, fun hrefuse => ?_⟩
  · have hw : (Instr.writeCmd idx arg).WellFormed s.cfg := checkIndex_eq_none (.inl hmask)
    refine ⟨_, exec_accept hp hw, ?_⟩
    rw [cmdFrame_mask]
    rfl
  · refine exec_refuse hp ?_
    simp only [refusalOf, Instr.check, checkIndex_eq_some hrefuse hidx]

/-- An operation that fails the length check is refused for that length (R175). -/
theorem exec_refuse_oversizeBuffer {i : Instr} {s : State} {len m : Nat} (hp : s.phase = .idle)
    (hcheck : i.check s.cfg = s.cfg.checkLength len) (hm : s.cfg.maxDataLen = some m)
    (hlen : m < len) : exec i s = .refused (.oversizeBuffer len) := by
  refine exec_refuse hp ?_
  simp only [refusalOf, hcheck, checkLength_eq_some hm hlen]

/-- With MAX_DATA_LEN unbounded every length passes the check (R175). -/
theorem checkLength_unbounded {p : Params} (h : p.maxDataLen = none) (len : Nat) :
    p.checkLength len = none :=
  checkLength_eq_none (by simp [h])

/-- Settles O34: the three operations share one check of a length. -/
theorem oversizeBufferIsRefused : Obligations.OversizeBufferIsRefused := by
  intro s data n hp
  refine ⟨fun m hm hlen => ⟨?_, ?_⟩, fun m hm hlen => ?_, fun hnone => ⟨?_, ?_, ?_⟩⟩
  · exact exec_refuse_oversizeBuffer hp rfl hm hlen
  · exact exec_refuse_oversizeBuffer hp rfl hm hlen
  · exact exec_refuse_oversizeBuffer hp rfl hm hlen
  · exact ⟨_, exec_accept hp (checkLength_unbounded hnone data.length)⟩
  · exact ⟨_, exec_accept hp (checkLength_unbounded hnone data.length)⟩
  · exact ⟨_, exec_accept hp (checkLength_unbounded hnone n)⟩

/-! ### Holding still -/

/-- Settles O35: with nothing to fetch, the step is the state itself. -/
theorem idleBlockHoldsStill : Obligations.IdleBlockHoldsStill :=
  fun _ hp hr hq => step_eq_self hp hr hq

end Sys2Proof.Machine
end

section
/-! PROOFS. Reset and hazards (70_reset_and_hazards.md): the state after reset (R190), a reset that abandons the operation in progress and cannot be told later (R191, R192), a call that is never answered (R197), and an operation that ends because the link answers (R200). -/

namespace Sys2Proof.Machine

/-! ### The reset step -/

/-- With the reset line asserted a step is the reset, whatever the block was doing (R191). -/
theorem step_reset {s : State} {p : Option Nat} (h : s.resetLine = .asserted p) :
    step s = .next (s.blockReset p) := by
  simp only [step, h]

@[simp] theorem State.blockReset_traffic (p : Option Nat) (s : State) :
    (s.blockReset p).traffic = (s.abandonCall p).traffic := rfl

@[simp] theorem State.blockReset_answers (p : Option Nat) (s : State) :
    (s.blockReset p).answers = (s.abandonCall p).answers := rfl

/-- Reset presents no completion (R191). -/
theorem State.blockReset_completions (p : Option Nat) (s : State) :
    (s.blockReset p).completions = s.completions := by
  obtain hleft | ⟨c, n, -, hleft⟩ := abandonCall_cases p s <;>
    simp only [State.blockReset, hleft, State.sendCall_completions]

/-- With no call in flight, or none left to make, there is no call to abandon (R191). -/
theorem abandonCall_of_no_call {s : State} {p : Option Nat}
    (h : p = none ∨ s.calls[s.k]? = none) : s.abandonCall p = s := by
  obtain rfl | hc := h
  · simp [State.abandonCall]
  · simp [State.abandonCall, hc]

/-- The call in flight has sent a part of its bytes, and its answer is lost (R191; log 17). -/
theorem abandonCall_in_flight {s : State} {c : LinkCall} (hp : s.phase = .running)
    (hc : s.calls[s.k]? = some c) (n : Nat) : s.abandonCall (some n) = s.sendCall c n := by
  simp only [State.abandonCall, hp, hc]

/-- A state that steps to itself is where every run from it ends. -/
theorem run_eq_self {s : State} (h : step s = .next s) (m : Nat) : run m s = .next s := by
  induction m with
  | zero => rfl
  | succ m ih => rw [run_succ h, ih]

/-- Settles O49: the link side changes by the call in flight alone; with nothing presented the IDLE
block then holds still. -/
theorem resetAbandonsTheOperation : Obligations.ResetAbandonsTheOperation := by
  intro s p hp hr
  have hport : (s.blockReset p).requester = s.requester := State.blockReset_requester p s
  refine ⟨s.blockReset p, step_reset hr, rfl, rfl, State.blockReset_completions p s, hport,
    (blockReset_addsAtMostOne p s).cfg, fun hnone => ?_, fun n c hn hc => ?_, fun hq => ?_⟩
  · rw [State.blockReset_traffic, State.blockReset_answers, abandonCall_of_no_call hnone]
    exact ⟨rfl, rfl⟩
  · subst hn
    rw [State.blockReset_traffic, State.blockReset_answers, abandonCall_in_flight hp hc]
    exact ⟨rfl, rfl⟩
  · exact run_eq_self (step_eq_self rfl rfl (hport.trans hq))

/-- Settles O50: after its reset step the block is IDLE and the same from outside as `u`. -/
theorem resetIsUnobservableLater : Obligations.ResetIsUnobservableLater := by
  intro n s u p hr _ hobs
  have hstep := step_reset hr
  rw [run_succ hstep]
  exact run_observe_of_sameFromOutside n (.inr ⟨State.blockReset_phase p s, hobs _ hstep⟩)

/-- Settles O46: the reset state is IDLE, of which the invariant says nothing. -/
theorem resetSatisfiesInvariant : Obligations.ResetSatisfiesInvariant :=
  ⟨rfl, rfl, inv_of_idle rfl⟩

/-! ### A link that never answers, and one that does -/

theorem linkCall_silent {s : State} (h : s.nextAnswer = .silent) (c : LinkCall)
    (ab : Value → List Byte → Value) : s.linkCall c ab = .fault .linkNeverAnswers := by
  simp only [State.linkCall, h]

/-- Settles O24: the call has no outcome, whichever the operation; reset looks at no phase. -/
theorem unansweredCallBlocksUntilReset : Obligations.UnansweredCallBlocksUntilReset := by
  refine ⟨fun s i c hp hc ha => ?_, fun s p hr => ⟨_, step_reset hr, State.blockReset_phase p s⟩⟩
  rw [exec_eq_operate, operate_call hp hc, linkCall_silent ha]

/-- A call in front of a run does not make it diverge. -/
theorem ScriptRun.after_ending_ne_diverged {ε : Type} {R : ScriptRun ε} (h : R.ending ≠ .diverged)
    (got : List Byte) (ev : LinkEvent) : (R.after got ev).ending ≠ .diverged := by
  obtain ⟨ending, _, _⟩ := R
  cases ending with
  | returned | failed => nofun
  | diverged => exact absurd rfl h

/-- A script diverges only at a call that the list of answers leaves silent or does not reach (R30). -/
theorem runScript_ending_ne_diverged {ε : Type} (more : Nat → LinkAnswerOf ε) (m : Nat)
    (calls : List LinkCall) (as : List (LinkAnswerOf ε)) (hlen : calls.length ≤ as.length)
    (hans : ∀ a ∈ as.take calls.length, a ≠ .silent) :
    (runScript more m calls as).ending ≠ .diverged := by
  induction calls generalizing m as with
  | nil => nofun
  | cons c rest ih =>
    obtain ⟨a, as, rfl⟩ := List.exists_cons_of_length_pos (Nat.lt_of_lt_of_le (Nat.succ_pos _) hlen)
    rw [List.length_cons, List.take_succ_cons, List.forall_mem_cons] at hans
    obtain ⟨ha, hrest⟩ := hans
    cases a with
    | ok d =>
      rw [runScript_ok c rest (answerFrom_cons more m _ as)]
      exact ScriptRun.after_ending_ne_diverged
        (ih (m + 1) as (Nat.le_of_succ_le_succ hlen) hrest) _ _
    | err e n =>
      rw [runScript_err c rest (answerFrom_cons more m _ as)]
      nofun
    | silent => exact absurd rfl ha

/-- The functional form returns a completion unless its script diverges (R30). -/
theorem exists_completionOf {ε : Type} (i : Instr) {r : ScriptEnd ε} (h : r ≠ .diverged) :
    ∃ c, completionOf i r = some c := by
  cases r with
  | returned ins => exact ⟨finishOf i ins, rfl⟩
  | failed e => exact ⟨.linkErr e, rfl⟩
  | diverged => exact absurd rfl h

/-- Settles O52: the script does not diverge, so the functional form returns a completion, with which
the engine ends. -/
theorem operationsEndIfTheLinkAnswers : Obligations.OperationsEndIfTheLinkAnswers := by
  intro s r rest i h hd hw hlen hans
  obtain ⟨hcompletes, -⟩ := presented_endsIn h hd hw rfl
  obtain ⟨c, hc⟩ := exists_completionOf i
    (runScript_ending_ne_diverged Config.linkAnswer s.traffic.length _ _ hlen hans)
  obtain ⟨n, hn, hends⟩ := hcompletes c hc
  exact ⟨n, c, _, _, hn, hends⟩

end Sys2Proof.Machine
end
